-- ==== Sys2Proof/Word.lean ====
section
/-! DEFINITION. The bit-vector types of the AGS10 transaction engine. Every value of this hardware is an unsigned
bit vector of a stated width and there are no signed values (00_scope.md R8). -/

namespace Sys2Proof

/-- A byte, 8 bits: the unit moved on the bus (20_memory.md R50), a bus address, a register id (00_scope.md R7). -/
abbrev Byte := BitVec 8

/-- 32 bits: the command word (30_encoding.md R80), the raw value and the decoded reading (00_scope.md R7). -/
abbrev Word := BitVec 32

/-- A settle delay in milliseconds, 16 bits unsigned: the parameter `DLY_W` of 00_scope.md R7. -/
abbrev Millis := BitVec 16

end Sys2Proof
end

