-- ==== Sys2Proof/Config.lean ====
section
/-! DEFINITION. The constants of the hardware (00_scope.md R7) under the names the spec gives them, and the two
values the spec leaves without a number, as constants with no body. The spec's literals are unaudited (assumption
log 18). -/

namespace Sys2Proof.Config

/-- `CRC_POLY`, the checksum polynomial (00_scope.md R7, 40_checksum.md R111). -/
@[simp] abbrev crcPoly : Byte := 0x31#8

/-- `CRC_INIT`, the initial value of the checksum (00_scope.md R7, 40_checksum.md R113). -/
@[simp] abbrev crcInit : Byte := 0xFF#8

/-- `SENTINEL`, the all-ones "no valid data" marker (00_scope.md R7, R12). -/
@[simp] abbrev sentinel : Word := 0xFFFFFFFF#32

/-- The resistance scale factor (00_scope.md R7, 42_decoder.md R140). -/
@[simp] abbrev resistanceScale : Word := 100#32

/-- The TVOC mask, the low 24 bits (00_scope.md R7, 42_decoder.md R140). -/
@[simp] abbrev tvocMask : Word := 0x00FFFFFF#32

/-- The number of bytes of a reply frame (00_scope.md R7, 30_encoding.md R87). -/
@[simp] abbrev replyLength : Nat := 5

/-- The register ids of 30_encoding.md R90: status + TVOC. -/
@[simp] abbrev regTvoc : Byte := 0x00#8
/-- Firmware version (30_encoding.md R90). -/
@[simp] abbrev regVersion : Byte := 0x11#8
/-- Raw gas resistance (30_encoding.md R90). -/
@[simp] abbrev regResistance : Byte := 0x20#8
/-- Address change (30_encoding.md R90). -/
@[simp] abbrev regAddress : Byte := 0x21#8

/-- The settle delay of register `0x11` (30_encoding.md R90). -/
@[simp] abbrev delayVersion : Millis := 30#16
/-- The settle delay of register `0x20` (30_encoding.md R90). -/
@[simp] abbrev delayResistance : Millis := 1000#16
/-- The settle delay of register `0x00` (30_encoding.md R90). -/
@[simp] abbrev delayTvoc : Millis := 1000#16

/-- `INIT_ADDR`: the OPEN 8-bit parameter of 00_scope.md R7, the address "supplied at construction". It has no body:
a claim that mentions it holds for every choice (assumption log 1). -/
opaque initAddr : Byte

/-- The value of `decode(op, raw)` for an `op` outside 1 to 4, which 42_decoder.md R140 leaves undefined. No body
(assumption log 2); no state that meets `Sys2Proof.Machine.Inv` applies it. -/
opaque undefinedReading : BitVec 3 → Word → Word

end Sys2Proof.Config
end

