-- ==== Sys2Proof/Syntax.lean ====
section
/-! DEFINITION. The five commands of the engine, one constructor per row of the opcode table. They stand in this
hardware where an instruction-set manual has instructions (00_scope.md R3, 30_encoding.md R81). -/

namespace Sys2Proof

/-- A command (30_encoding.md R81). Operands are unsigned and taken as they stand (R85). -/
inductive Instr where
  /-- RDREG `reg`, `dly`: `read_register(handle, register_id, settle_delay_ms)` (41_transaction.md R131). -/
  | rdreg (reg : Byte) (dly : Millis)
  /-- GETVER: the firmware version reading (42_decoder.md R141). -/
  | getver
  /-- GETRES: the gas resistance reading (42_decoder.md R142). -/
  | getres
  /-- GETTVOC: the status + TVOC reading (42_decoder.md R143). -/
  | gettvoc
  /-- SETADDR `n`: `set_address(handle, new_address)` (43_address_change.md R150). -/
  | setaddr (n : Byte)
deriving DecidableEq, Repr

/-- The read commands are RDREG, GETVER, GETRES and GETTVOC (30_encoding.md R81). -/
def Instr.isRead : Instr → Bool
  | .rdreg _ _ => true
  | .getver => true
  | .getres => true
  | .gettvoc => true
  | .setaddr _ => false

end Sys2Proof
end

