-- ==== Sys2Proof/WellFormed.lean ====
section
/-! DEFINITION. Which command words are legal, as the mask and match table of 30_encoding.md R83 states it, apart
from the decoder. Every operand value of a command is accepted (R85, R91, 43_address_change.md R152), so every term of
`Instr` is well formed; what can be ill formed is a command word. -/

namespace Sys2Proof

/-- A row of the table of 30_encoding.md R83. -/
structure CommandRow where
  mnemonic : String
  pattern : Word
  mask : Word
deriving DecidableEq, Repr

/-- The table of 30_encoding.md R83. -/
def commandTable : List CommandRow :=
  [ ⟨"RDREG", 0x00000001#32, 0x000000FF#32⟩,
    ⟨"GETVER", 0x00000002#32, 0xFFFFFFFF#32⟩,
    ⟨"GETRES", 0x00000003#32, 0xFFFFFFFF#32⟩,
    ⟨"GETTVOC", 0x00000004#32, 0xFFFFFFFF#32⟩,
    ⟨"SETADDR", 0x00000005#32, 0xFFFF00FF#32⟩ ]

/-- `(w & mask) == match` (30_encoding.md R83). -/
def CommandRow.accepts (r : CommandRow) (w : Word) : Bool := w &&& r.mask == r.pattern

/-- A command word is legal exactly when it matches a row (30_encoding.md R83). -/
def legalWord (w : Word) : Bool := commandTable.any fun r => r.accepts w

/-- No word matches both rows: they differ in a bit that both fix. -/
def CommandRow.disjoint (r q : CommandRow) : Bool := r.pattern &&& q.mask != q.pattern &&& r.mask

/-- Well-formedness of a command. The engine checks no operand (30_encoding.md R85, R91; 43_address_change.md R152;
70_reset_and_hazards.md R189), and an operand cannot exceed its field's width, so nothing is left to refuse. -/
def Instr.wellFormed : Instr → Bool
  | .rdreg _ _ => true
  | .getver => true
  | .getres => true
  | .gettvoc => true
  | .setaddr _ => true

end Sys2Proof
end

