-- ==== Sys2Proof/Decode.lean ====
section
/-! DEFINITION. Decoding a command word, total and rejecting by name, and the encoder, both from the format of
30_encoding.md R82. -/

namespace Sys2Proof

/-- Why a word is illegal (30_encoding.md R84). The engine itself reports every reason as ERR = ILLEGAL;
the names and the order in which they are looked for are the model's (assumption log 8). -/
inductive Reject where
  /-- OP is one of the reserved values 0, 6, 7. -/
  | reservedOp
  /-- The field Z is not zero. -/
  | nonzeroZ
  /-- The field A is not zero in GETVER, GETRES or GETTVOC. -/
  | nonzeroA
  /-- The field DLY is not zero in a command other than RDREG. -/
  | nonzeroDly
deriving DecidableEq, Repr

/-- OP, bits 2:0 (30_encoding.md R82). -/
def fieldOp (w : Word) : BitVec 3 := w.extractLsb' 0 3
/-- Z, bits 7:3 (30_encoding.md R82). -/
def fieldZ (w : Word) : BitVec 5 := w.extractLsb' 3 5
/-- A, bits 15:8 (30_encoding.md R82). -/
def fieldA (w : Word) : Byte := w.extractLsb' 8 8
/-- DLY, bits 31:16 (30_encoding.md R82). -/
def fieldDly (w : Word) : Millis := w.extractLsb' 16 16

/-- A command that takes no operand: A and DLY must be zero (30_encoding.md R82). -/
def decodeBare (i : Instr) (w : Word) : Except Reject Instr :=
  if fieldA w ≠ 0#8 then .error .nonzeroA
  else if fieldDly w ≠ 0#16 then .error .nonzeroDly
  else .ok i

/-- SETADDR: DLY must be zero (30_encoding.md R82). -/
def decodeSetaddr (w : Word) : Except Reject Instr :=
  if fieldDly w ≠ 0#16 then .error .nonzeroDly else .ok (.setaddr (fieldA w))

/-- The command a word stands for, or why it is illegal (30_encoding.md R82 to R84). -/
def decode (w : Word) : Except Reject Instr :=
  if fieldZ w ≠ 0#5 then .error .nonzeroZ
  else if fieldOp w = 1#3 then .ok (.rdreg (fieldA w) (fieldDly w))
  else if fieldOp w = 2#3 then decodeBare .getver w
  else if fieldOp w = 3#3 then decodeBare .getres w
  else if fieldOp w = 4#3 then decodeBare .gettvoc w
  else if fieldOp w = 5#3 then decodeSetaddr w
  else .error .reservedOp

/-- A command word from its fields, DLY the most significant (30_encoding.md R82). -/
def packWord (dly : Millis) (a : Byte) (op : BitVec 3) : Word := dly ++ a ++ 0#5 ++ op

/-- The word of a command (30_encoding.md R82, R93). -/
def encode : Instr → Word
  | .rdreg reg dly => packWord dly reg 1#3
  | .getver => packWord 0#16 0#8 2#3
  | .getres => packWord 0#16 0#8 3#3
  | .gettvoc => packWord 0#16 0#8 4#3
  | .setaddr n => packWord 0#16 n 5#3

/-- How a command is written, with decimal operands (30_encoding.md R93). -/
def assembly : Instr → String
  | .rdreg reg dly => "RDREG " ++ toString reg.toNat ++ ", " ++ toString dly.toNat
  | .getver => "GETVER"
  | .getres => "GETRES"
  | .gettvoc => "GETTVOC"
  | .setaddr n => "SETADDR " ++ toString n.toNat

/-- The 32-bit command word that a row of the opcode table describes by its low `nbits` bits: the command port takes
one word whole (20_memory.md R51), so no byte order enters. -/
def tableWord (nbits w : Nat) : Word := BitVec.ofNat 32 (w % 2 ^ nbits)

/-- What the decoder reads from the table's word `w` of `nbits` bits. -/
def decodeTableWord (nbits w : Nat) : Option Instr := (decode (tableWord nbits w)).toOption

end Sys2Proof
end

