-- ==== Sys2Proof/Machine/State.lean ====
section
/-! DEFINITION. The state of the engine as plain data: every register of 10_state.md R20, the event history of
20_memory.md R62, and the input ports of 20_memory.md R51 with what they will show in the steps to come. -/

namespace Sys2Proof.Machine

/-- An event of the event history H (20_memory.md R62); the answers are not recorded (assumption log 11). -/
inductive BusEvent where
  /-- `W(a, s)`: a write request of the frame `s` to bus address `a`. -/
  | write (a : Byte) (s : List Byte)
  /-- `D(ms)`: a delay request. -/
  | delay (ms : Millis)
  /-- `R(a, n)`: a read request of `n` bytes from bus address `a`. -/
  | read (a : Byte) (n : Nat)
deriving DecidableEq, Repr

/-- The values of the input ports in one step (20_memory.md R51); `clk` counts nothing and `rst` is no move of a model
(70_reset_and_hazards.md R181; assumption log 12). These are the free inputs of 20_memory.md R55. -/
structure Inputs where
  /-- `cmd_valid`: the host presents a command word. -/
  cmdValid : Bool
  /-- `cmd`: the command word. -/
  cmd : Word
  /-- `t_done`: the transport answers the outstanding request. -/
  tDone : Bool
  /-- `t_ok`: the primitive returned true. -/
  tOk : Bool
  /-- `t_rdata`: the five bytes received, byte i in bits 8i+7 to 8i. -/
  tRdata : BitVec 40
  /-- `d_done`: the delay agent reports that the wait is over. -/
  dDone : Bool
deriving DecidableEq, Repr

/-- Ports on which no agent offers anything. -/
def Inputs.silent : Inputs := ⟨false, 0#32, false, false, 0#40, false⟩

/-- The error kinds (10_state.md R24, 60_exceptions.md R160). -/
inductive ErrKind where
  /-- No error, or no command finished yet. -/
  | none
  /-- The underlying write or read primitive reported failure. -/
  | transport
  /-- Checksum mismatch on an otherwise successful read. -/
  | integrity
  /-- The command word was not a legal encoding. -/
  | illegal
deriving DecidableEq, Repr

/-- The values of PHASE (10_state.md R27): no command in progress. -/
@[simp] abbrev Phase.idle : BitVec 3 := 0#3
/-- The write is to be requested or is outstanding (10_state.md R27). -/
@[simp] abbrev Phase.write : BitVec 3 := 1#3
/-- The settle delay is to be requested or is outstanding (10_state.md R27). -/
@[simp] abbrev Phase.delay : BitVec 3 := 2#3
/-- The read is to be requested or is outstanding (10_state.md R27). -/
@[simp] abbrev Phase.read : BitVec 3 := 3#3
/-- RX holds five received bytes that are still to be checked (10_state.md R27). -/
@[simp] abbrev Phase.check : BitVec 3 := 4#3

/-- The values of OP (30_encoding.md R81). -/
@[simp] abbrev Op.rdreg : BitVec 3 := 1#3
/-- GETVER (30_encoding.md R81). -/
@[simp] abbrev Op.getver : BitVec 3 := 2#3
/-- GETRES (30_encoding.md R81). -/
@[simp] abbrev Op.getres : BitVec 3 := 3#3
/-- GETTVOC (30_encoding.md R81). -/
@[simp] abbrev Op.gettvoc : BitVec 3 := 4#3
/-- SETADDR (30_encoding.md R81). -/
@[simp] abbrev Op.setaddr : BitVec 3 := 5#3

/-- The machine. The fields from `addr` to `crc` are the registers of 10_state.md R20, complete; `hist` is H; `port` and
`env` are the model's own (assumption log 3). -/
structure State where
  /-- ADDR: the current bus address of the sensor (10_state.md R21). -/
  addr : Byte
  /-- VALUE: the decoded reading of the last completed command (10_state.md R22). -/
  value : Word
  /-- DONE: the last command given has finished (10_state.md R23). -/
  done : Bool
  /-- ERR: the error kind of the last finished command, coded by R24. -/
  err : BitVec 2
  /-- PHASE: where the engine is in the current command (10_state.md R27). -/
  phase : BitVec 3
  /-- PEND: a request of the current phase is not yet answered (10_state.md R28). -/
  pend : Bool
  /-- OP: the latched opcode (10_state.md R29). -/
  op : BitVec 3
  /-- REG: the latched register id (10_state.md R29). -/
  reg : Byte
  /-- DLY: the latched settle delay (10_state.md R29). -/
  dly : Millis
  /-- NEWA: the latched new address (10_state.md R29). -/
  newa : Byte
  /-- TX[0..5]: the frame the WRITE phase sends (10_state.md R30). -/
  tx : Vector Byte 6
  /-- TXLEN: how many bytes of TX the frame has (10_state.md R30). -/
  txlen : BitVec 3
  /-- RX[0..4]: the raw payload of one read transaction (10_state.md R31). -/
  rx : Vector Byte 5
  /-- CRC: the checksum accumulator, zero between steps (10_state.md R32; assumption log 10). -/
  crc : Byte
  /-- H: the events the engine has requested, oldest first; the engine never reads it (20_memory.md R62). -/
  hist : List BusEvent
  /-- The input ports in the coming step (20_memory.md R51). -/
  port : Inputs
  /-- The input ports in the steps after it; past the end of the list they are silent. -/
  env : List Inputs
deriving DecidableEq, Repr

/-- No step of the engine ends in a fault: an error completion is a normal final state of a command and "there is no
state in which the engine itself is broken" (60_exceptions.md R168), so the type has no constructor. Nobody raises one
(assumption log 15). -/
inductive Fault where
deriving DecidableEq, Repr

/-- Why a step has no meaning. -/
inductive Refusal where
  /-- Raised by `exec` for a command that has no meaning in this model yet; no command is left without one, so nobody
  raises it. Safe: the model would stop where the engine goes on. -/
  | notModelled (mnemonic : String)
deriving DecidableEq, Repr

/-- TX with every byte zero. -/
def txZero : Vector Byte 6 := #v[0#8, 0#8, 0#8, 0#8, 0#8, 0#8]

/-- RX with every byte zero. -/
def rxZero : Vector Byte 5 := #v[0#8, 0#8, 0#8, 0#8, 0#8]

/-- The machine right after reset (10_state.md R36, 70_reset_and_hazards.md R180); the ports are silent
(assumption log 3). -/
def State.reset : State where
  addr := Config.initAddr
  value := Config.sentinel
  done := false
  err := 0#2
  phase := Phase.idle
  pend := false
  op := 0#3
  reg := 0#8
  dly := 0#16
  newa := 0#8
  tx := txZero
  txlen := 0#3
  rx := rxZero
  crc := 0#8
  hist := []
  port := Inputs.silent
  env := []

end Sys2Proof.Machine
end

