-- ==== Sys2Proof/Machine/Checksum.lean ====
section
/-! DEFINITION. The checksum engine (40_checksum.md): CRC-8, a pure function of a byte sequence of any length. -/

namespace Sys2Proof.Machine

/-- One round (40_checksum.md R111): the bit shifted out is dropped before the exclusive or. -/
def crc8Round (a : Byte) : Byte :=
  if a.getLsbD 7 then (a <<< 1) ^^^ Config.crcPoly else a <<< 1

/-- `k` rounds. -/
def crc8Rounds : Nat → Byte → Byte
  | 0, a => a
  | k + 1, a => crc8Rounds k (crc8Round a)

/-- One byte: one exclusive or, then eight rounds (40_checksum.md R112). -/
def crc8Byte (a b : Byte) : Byte := crc8Rounds 8 (a ^^^ b)

/-- The checksum of a byte sequence (40_checksum.md R113). -/
def crc8 (s : List Byte) : Byte := s.foldl crc8Byte Config.crcInit

/-- The checksum of the first four of the five received bytes (40_checksum.md R113, R114). -/
def frameChecksum (rx : Vector Byte 5) : Byte := crc8 [rx[0], rx[1], rx[2], rx[3]]

/-- The frame check (40_checksum.md R114). -/
def frameOk (rx : Vector Byte 5) : Bool := frameChecksum rx == rx[4]

end Sys2Proof.Machine
end

