-- ==== Sys2Proof/Machine/Operands.lean ====
section
/-! DEFINITION. The value computations of 30_encoding.md R92: what a command latches, the frames it sends, how the
answer of the transport and the raw value are put together from bytes, and the decoding of a reading. -/

namespace Sys2Proof.Machine

/-- The latched command: OP, REG, DLY, NEWA (10_state.md R29). -/
structure Latched where
  op : BitVec 3
  reg : Byte
  dly : Millis
  newa : Byte
deriving DecidableEq, Repr

/-- `latch(w)` for the command that `w` encodes (30_encoding.md R85). -/
def latch : Instr → Latched
  | .rdreg reg dly => ⟨Op.rdreg, reg, dly, 0#8⟩
  | .getver => ⟨Op.getver, Config.regVersion, Config.delayVersion, 0#8⟩
  | .getres => ⟨Op.getres, Config.regResistance, Config.delayResistance, 0#8⟩
  | .gettvoc => ⟨Op.gettvoc, Config.regTvoc, Config.delayTvoc, 0#8⟩
  | .setaddr n => ⟨Op.setaddr, Config.regAddress, 0#16, n⟩

/-- The latched command that the registers hold. -/
def State.latched (s : State) : Latched := ⟨s.op, s.reg, s.dly, s.newa⟩

/-- The register-select frame in TX (30_encoding.md R86). -/
def selectFrame (reg : Byte) : Vector Byte 6 := #v[reg, 0#8, 0#8, 0#8, 0#8, 0#8]

/-- `addr_frame(n)`, the address-change frame (30_encoding.md R89). -/
def addrFrame (n : Byte) : Vector Byte 6 := #v[Config.regAddress, n, ~~~n, n, ~~~n, 0#8]

/-- What acceptance puts into TX (41_transaction.md R121). -/
def Latched.tx (l : Latched) : Vector Byte 6 :=
  if l.op = Op.setaddr then addrFrame l.newa else selectFrame l.reg

/-- What acceptance puts into TXLEN (41_transaction.md R121). -/
def Latched.txlen (l : Latched) : BitVec 3 := if l.op = Op.setaddr then 6#3 else 1#3

/-- TX[0..TXLEN], the frame that a write request carries (41_transaction.md R123), first byte first (20_memory.md R58). -/
def State.frame (s : State) : List Byte := s.tx.toList.take s.txlen.toNat

/-- The answer of the transport to the outstanding request: `ok` and, for a read, the bytes in the order received
(20_memory.md R52, R53). -/
structure Answer where
  ok : Bool
  bytes : Vector Byte 5
deriving DecidableEq, Repr

/-- Byte i of `t_rdata` is bits 8i+7 to 8i (20_memory.md R51). -/
def replyBytes (d : BitVec 40) : Vector Byte 5 :=
  #v[d.extractLsb' 0 8, d.extractLsb' 8 8, d.extractLsb' 16 8, d.extractLsb' 24 8, d.extractLsb' 32 8]

/-- What the transport answers in this step, if it answers. -/
def Inputs.answer (p : Inputs) : Option Answer :=
  if p.tDone then some ⟨p.tOk, replyBytes p.tRdata⟩ else none

/-- `be32(d0, d1, d2, d3)`, the first byte the most significant (30_encoding.md R87, 20_memory.md R57). -/
def be32 (d0 d1 d2 d3 : Byte) : Word := d0 ++ d1 ++ d2 ++ d3

/-- The raw value of a reply frame (30_encoding.md R87). -/
def rawValue (rx : Vector Byte 5) : Word := be32 rx[0] rx[1] rx[2] rx[3]

/-- `decode(op, raw)` (42_decoder.md R140). Not defined for `op` outside 1 to 4, where the value is free
(assumption log 2). -/
def decodeReading (op : BitVec 3) (raw : Word) : Word :=
  if op = Op.rdreg then raw
  else if op = Op.getver then raw
  else if op = Op.getres then raw * Config.resistanceScale
  else if op = Op.gettvoc then raw &&& Config.tvocMask
  else Config.undefinedReading op raw

end Sys2Proof.Machine
end

