-- ==== Sys2Proof/Machine/Flags.lean ====
section
/-! DEFINITION. The status of the engine: DONE, ERR, the derived BUSY, and the STATUS word (10_state.md R23 to R25). -/

namespace Sys2Proof.Machine

/-- The codes of ERR (10_state.md R24). -/
@[simp] def ErrKind.code : ErrKind → BitVec 2
  | .none => 0b00#2
  | .transport => 0b01#2
  | .integrity => 0b10#2
  | .illegal => 0b11#2

/-- BUSY is `PHASE != 0`, not a register (10_state.md R25). -/
def State.busy (s : State) : Bool := s.phase != Phase.idle

/-- `cmd_ready`, the complement of BUSY (10_state.md R25, 20_memory.md R51). -/
def State.cmdReady (s : State) : Bool := s.phase == Phase.idle

/-- STATUS: BUSY in bit 0, DONE in bit 1, ERR in bits 3:2, zero above (10_state.md R25). -/
def State.status (s : State) : Word := 0#28 ++ s.err ++ BitVec.ofBool s.done ++ BitVec.ofBool s.busy

/-- A command succeeded if and only if DONE = 1 and ERR = 0 (10_state.md R23). -/
def State.succeeded (s : State) : Bool := s.done && s.err == ErrKind.none.code

/-- The result part of the end of a command: ERR, VALUE and DONE (41_transaction.md R122, R130). -/
def State.report (e : ErrKind) (v : Word) (s : State) : State :=
  { s with err := e.code, value := v, done := true }

end Sys2Proof.Machine
end

