-- ==== Sys2Proof/Machine/Ops.lean ====
section
/-! DEFINITION. The steps of the engine, 41_transaction.md R121 to R130, one definition per rule; how an error kind is
raised and how the engine returns from it (60_exceptions.md R166, R167); and how the command that a step runs is found.
There is no memory: the two-wire bus is reached through requests that the history records (20_memory.md R50, R62). -/

namespace Sys2Proof.Machine

/-- The transient registers at zero and PHASE at IDLE: the idle form of 10_state.md R35. -/
def State.cleared (s : State) : State :=
  { s with
    op := 0#3, reg := 0#8, dly := 0#16, newa := 0#8, tx := txZero, txlen := 0#3, rx := rxZero, crc := 0#8,
    pend := false, phase := Phase.idle }

/-- complete(e, v) (41_transaction.md R130). Afterwards the engine is idle and can accept the next command: the return
of 60_exceptions.md R167, in which nothing is restored. -/
def complete (e : ErrKind) (v : Word) (s : State) : State := (s.report e v).cleared

/-- `raise e` (00_scope.md R9, 60_exceptions.md R166): the command in progress finishes with the error kind and VALUE
holds the sentinel. Control goes nowhere: there is no vector and no handler. -/
def raiseError (e : ErrKind) (s : State) : State := complete e Config.sentinel s

/-- accept (41_transaction.md R121). -/
def accept (l : Latched) (s : State) : State :=
  { s with
    op := l.op, reg := l.reg, dly := l.dly, newa := l.newa, tx := l.tx, txlen := l.txlen,
    done := false, err := ErrKind.none.code, value := Config.sentinel, pend := false, phase := Phase.write }

/-- reject (41_transaction.md R122): ILLEGAL, raised before any transaction starts; PHASE and the transient registers
stay as they are (60_exceptions.md R163; assumption log 9). -/
def reject (s : State) : State := s.report .illegal Config.sentinel

/-- Record a request in H and mark it outstanding. -/
def issue (e : BusEvent) (s : State) : State := { s with hist := s.hist ++ [e], pend := true }

/-- write-issue (41_transaction.md R123); ADDR goes out as it stands (assumption log 17). -/
def writeIssue (s : State) : State := issue (.write s.addr s.frame) s

/-- write-response (41_transaction.md R124). -/
def writeResponse (ok : Bool) (s : State) : State :=
  if ok = false then raiseError .transport s
  else if s.op = Op.setaddr then complete .none Config.sentinel { s with addr := s.newa }
  else { s with pend := false, phase := Phase.delay }

/-- delay-issue, also for a delay of zero (41_transaction.md R125); no time passes (assumption log 14). -/
def delayIssue (s : State) : State := issue (.delay s.dly) s

/-- delay-response (41_transaction.md R126). -/
def delayResponse (s : State) : State := { s with pend := false, phase := Phase.read }

/-- read-issue (41_transaction.md R127). -/
def readIssue (s : State) : State := issue (.read s.addr Config.replyLength) s

/-- read-response (41_transaction.md R128): the bytes of a failed read are ignored. -/
def readResponse (a : Answer) (s : State) : State :=
  if a.ok = false then raiseError .transport s
  else { s with rx := a.bytes, pend := false, phase := Phase.check }

/-- check (41_transaction.md R129): CRC takes the checksum, which the completion that ends the step clears. -/
def check (s : State) : State :=
  if frameOk s.rx then
    complete .none (decodeReading s.op (rawValue s.rx)) { s with crc := frameChecksum s.rx }
  else raiseError .integrity { s with crc := frameChecksum s.rx }

/-- The WRITE phase: issue, then wait for the answer (41_transaction.md R123, R124). -/
def writePhase (s : State) : State :=
  if s.pend = false then writeIssue s
  else match s.port.answer with
    | some a => writeResponse a.ok s
    | none => s

/-- The DELAY phase (41_transaction.md R125, R126). -/
def delayPhase (s : State) : State :=
  if s.pend = false then delayIssue s else if s.port.dDone then delayResponse s else s

/-- The READ phase (41_transaction.md R127, R128). -/
def readPhase (s : State) : State :=
  if s.pend = false then readIssue s
  else match s.port.answer with
    | some a => readResponse a s
    | none => s

/-- The step that PHASE and PEND enable while a command is in progress (41_transaction.md R120). Where none is enabled
the registers keep their values: an outstanding request without an answer (60_exceptions.md R172), and the values 5 to 7
of PHASE, which no rule writes (10_state.md R27; assumption log 4). -/
def advance (s : State) : State :=
  if s.phase = Phase.write then writePhase s
  else if s.phase = Phase.delay then delayPhase s
  else if s.phase = Phase.read then readPhase s
  else if s.phase = Phase.check then check s
  else s

/-- The step that the engine takes for the command that latches `l`: idle, it accepts it; while that command is in
progress, the step that PHASE and PEND enable; while another command is in progress it is held, neither stored nor
answered (41_transaction.md R120, 70_reset_and_hazards.md R187; assumption log 5). -/
def command (l : Latched) (s : State) : State :=
  if s.phase = Phase.idle then accept l s else if s.latched = l then advance s else s

/-- The command whose operands the latched registers hold, if they hold one (30_encoding.md R85 read backwards). -/
def State.inProgress (s : State) : Option Instr :=
  if s.latched = latch (.rdreg s.reg s.dly) then some (.rdreg s.reg s.dly)
  else if s.latched = latch .getver then some .getver
  else if s.latched = latch .getres then some .getres
  else if s.latched = latch .gettvoc then some .gettvoc
  else if s.latched = latch (.setaddr s.newa) then some (.setaddr s.newa)
  else none

/-- What the engine is about to do. -/
inductive Activity where
  /-- Take a step of a command: accept the one offered or go on with the one in progress. -/
  | command (i : Instr)
  /-- Reject the illegal word offered. -/
  | illegal (r : Reject)
  /-- Go on with latched registers that are no command's; no reachable state has them
  (assumption log 16). -/
  | unclaimed
  /-- Idle and no word offered: no step is enabled (60_exceptions.md R173). -/
  | quiet
deriving DecidableEq, Repr

/-- What the engine does with the command port when idle (41_transaction.md R121, R122). -/
def State.offered (s : State) : Activity :=
  if s.port.cmdValid then
    match decode s.port.cmd with
    | .ok i => .command i
    | .error r => .illegal r
  else .quiet

/-- What the engine does next: PHASE decides (10_state.md R27). -/
def State.activity (s : State) : Activity :=
  if s.phase = Phase.idle then s.offered
  else match s.inProgress with
    | some i => .command i
    | none => .unclaimed

/-- The step is over: the ports show what the other agents offer next (00_scope.md R10; assumption log 3). -/
def State.tick (s : State) : State :=
  { s with port := s.env.headD Inputs.silent, env := s.env.tail }

/-- The host presents a command word on the command port (10_state.md R26). -/
def State.offer (w : Word) (s : State) : State := { s with port := { s.port with cmdValid := true, cmd := w } }

/-- An engine that is ready for a command: as it is when idle, else with the command in progress put away. -/
def State.readied (s : State) : State := if s.phase = Phase.idle then s else s.cleared

end Sys2Proof.Machine
end

