-- ==== Sys2Proof/Machine/AddressChange.lean ====
section
/-! DEFINITION. SETADDR, the address-change operation (43_address_change.md). -/

namespace Sys2Proof.Machine

/-- SETADDR `n`: one write of the six-byte frame to the old address; ADDR follows the transport's answer
(43_address_change.md R150, R151). -/
def execSetaddr (n : Byte) (s : State) : Host.Outcome State Fault Refusal :=
  .next (command (latch (.setaddr n)) s)

end Sys2Proof.Machine
end

