-- ==== Sys2Proof/Machine/Reading.lean ====
section
/-! DEFINITION. The reading decoder's commands (42_decoder.md): each runs the read transaction with a register id and a
delay of its own, and its CHECK step applies its own decoding. -/

namespace Sys2Proof.Machine

/-- GETVER: the firmware version, unmodified (42_decoder.md R141). -/
def execGetver (s : State) : Host.Outcome State Fault Refusal := .next (command (latch .getver) s)

/-- GETRES: the gas resistance, times 100 modulo 2^32 (42_decoder.md R142). -/
def execGetres (s : State) : Host.Outcome State Fault Refusal := .next (command (latch .getres) s)

/-- GETTVOC: the low 24 bits of status + TVOC (42_decoder.md R143). -/
def execGettvoc (s : State) : Host.Outcome State Fault Refusal := .next (command (latch .gettvoc) s)

end Sys2Proof.Machine
end

