-- ==== Sys2Proof/Machine/Transaction.lean ====
section
/-! DEFINITION. RDREG, the register-read transaction (41_transaction.md R131). -/

namespace Sys2Proof.Machine

/-- RDREG `reg`, `dly`: the raw value is returned as it is (41_transaction.md R131, 42_decoder.md R140). -/
def execRdreg (reg : Byte) (dly : Millis) (s : State) : Host.Outcome State Fault Refusal :=
  .next (command (latch (.rdreg reg dly)) s)

end Sys2Proof.Machine
end

