-- ==== Sys2Proof/Machine/Dispatch.lean ====
section
/-! DEFINITION. One arm per command. -/

namespace Sys2Proof.Machine

/-- The step that the engine takes for a command. -/
def exec (i : Instr) (s : State) : Host.Outcome State Fault Refusal :=
  match i with
  | .rdreg reg dly => Sys2Proof.Machine.execRdreg reg dly s
  | .getver => Sys2Proof.Machine.execGetver s
  | .getres => Sys2Proof.Machine.execGetres s
  | .gettvoc => Sys2Proof.Machine.execGettvoc s
  | .setaddr n => Sys2Proof.Machine.execSetaddr n s

end Sys2Proof.Machine
end

