-- ==== Sys2Proof/Machine/Step.lean ====
section
/-! DEFINITION. One step of the machine: the one engine step that is enabled (41_transaction.md R120), and then the
ports show the other agents' next offers. -/

namespace Sys2Proof.Machine

/-- The ports move on after a next state. -/
def after : Host.Outcome State Fault Refusal → Host.Outcome State Fault Refusal
  | .next s => .next s.tick
  | .fault r => .fault r
  | .refused r => .refused r

/-- One step. An idle engine to which no word is offered, and an engine that waits for an answer, have no enabled step:
only the ports move (60_exceptions.md R172, R173). -/
def step (s : State) : Host.Outcome State Fault Refusal :=
  match s.activity with
  | .command i => after (exec i s)
  | .illegal _ => .next (reject s).tick
  | .unclaimed => .next (advance s).tick
  | .quiet => .next s.tick

/-- The table's word presented on the command port of an engine that is ready for it (assumption log 6). -/
def State.withFetchWord (s : State) (nbits w : Nat) : State := s.readied.offer (tableWord nbits w)

end Sys2Proof.Machine
end

