-- ==== Sys2Proof/Machine/Ports.lean ====
section
/-! DEFINITION. What the engine shows: the output ports of 20_memory.md R51 as functions of the state, and the host's
registers of 10_state.md R26. Nothing here changes the state. -/

namespace Sys2Proof.Machine

/-- The output ports of 20_memory.md R51. A port that carries part of a request has no value (`none`) in a step in
which the spec gives it none (assumption log 7). -/
structure Outputs where
  /-- `cmd_ready`. -/
  cmdReady : Bool
  /-- `busy`. -/
  busy : Bool
  /-- `done`. -/
  done : Bool
  /-- `err`. -/
  err : BitVec 2
  /-- `value`. -/
  value : Word
  /-- `addr`. -/
  addr : Byte
  /-- `t_req`: a transport request is being issued. -/
  tReq : Bool
  /-- `t_rw`: false a write, true a read. -/
  tRw : Option Bool
  /-- `t_addr`. -/
  tAddr : Byte
  /-- `t_len`. -/
  tLen : Option (BitVec 3)
  /-- `t_wdata`: byte i of the frame in bits 8i+7 to 8i. -/
  tWdata : Option (BitVec 48)
  /-- `d_req`: a delay request is being issued. -/
  dReq : Bool
  /-- `d_ms`. -/
  dMs : Millis
deriving DecidableEq, Repr

/-- The step that comes next issues a request in phase `p`: 41_transaction.md R123, R125 and R127. -/
def State.issuesIn (s : State) (p : BitVec 3) : Bool := s.phase == p && !s.pend

/-- Byte `i` of TX as `t_wdata` shows it: zero at index TXLEN and above (20_memory.md R51). -/
def State.wireByte (s : State) (i : Fin 6) : Byte := if i.val < s.txlen.toNat then s.tx[i] else 0#8

/-- `t_wdata` (20_memory.md R51). -/
def State.wdata (s : State) : BitVec 48 :=
  s.wireByte 5 ++ s.wireByte 4 ++ s.wireByte 3 ++ s.wireByte 2 ++ s.wireByte 1 ++ s.wireByte 0

/-- The output ports (20_memory.md R51). -/
def State.outputs (s : State) : Outputs where
  cmdReady := s.cmdReady
  busy := s.busy
  done := s.done
  err := s.err
  value := s.value
  addr := s.addr
  tReq := s.issuesIn Phase.write || s.issuesIn Phase.read
  tRw := if s.issuesIn Phase.write then some false else if s.issuesIn Phase.read then some true else none
  tAddr := s.addr
  tLen := if s.issuesIn Phase.write then some s.txlen else if s.issuesIn Phase.read then some 5#3 else none
  tWdata := if s.issuesIn Phase.write then some s.wdata else none
  dReq := s.issuesIn Phase.delay
  dMs := s.dly

/-- The host-visible registers (10_state.md R26). -/
inductive HostReg where
  /-- Write-only: a port, not a storage register. -/
  | cmd
  /-- Read-only. -/
  | status
  /-- Read-only. -/
  | value
  /-- Read-only. -/
  | addr
deriving DecidableEq, Repr

/-- The register numbers (10_state.md R26). -/
def HostReg.number : HostReg → BitVec 2
  | .cmd => 0#2
  | .status => 1#2
  | .value => 2#2
  | .addr => 3#2

/-- What a host access to a whole register reads; CMD is write-only and gives nothing (10_state.md R26). -/
def State.hostRead (s : State) : HostReg → Option Word
  | .cmd => none
  | .status => some s.status
  | .value => some s.value
  | .addr => some (s.addr.setWidth 32)

/-- What a host write does: to CMD, the word is presented on the command port; the other registers are read-only
(10_state.md R26, assumption log 7). -/
def State.hostWrite (s : State) (w : Word) : HostReg → Option State
  | .cmd => some (s.offer w)
  | .status => none
  | .value => none
  | .addr => none

end Sys2Proof.Machine
end

