-- ==== Sys2Proof/Safety.lean ====
section
/-! DEFINITION. The terms that claims use: the idle form, the invariants of the reachable states, the history as a
sequence of whole transactions, the outcome of a command as 41_transaction.md R132 tabulates it, and the duties of the
platform that a claim may take as premises. -/

namespace Sys2Proof

/-- A careful host gives RDREG only with these pairs of register id and delay (70_reset_and_hazards.md R189). -/
def Instr.careful : Instr → Bool
  | .rdreg reg dly =>
    (reg == Config.regTvoc && dly == Config.delayTvoc) || (reg == Config.regVersion && dly == Config.delayVersion) ||
      (reg == Config.regResistance && dly == Config.delayResistance)
  | .getver => true
  | .getres => true
  | .gettvoc => true
  | .setaddr _ => true

namespace Machine

/-- The idle form of 10_state.md R35. -/
abbrev State.idleForm (s : State) : Prop :=
  s.pend = false ∧ s.op = 0#3 ∧ s.reg = 0#8 ∧ s.dly = 0#16 ∧ s.newa = 0#8 ∧ s.tx = txZero ∧ s.txlen = 0#3 ∧
    s.rx = rxZero ∧ s.crc = 0#8

/-- Two states in which every register of 10_state.md R20 holds the same. -/
abbrev State.sameRegisters (s t : State) : Prop :=
  s.addr = t.addr ∧ s.value = t.value ∧ s.done = t.done ∧ s.err = t.err ∧ s.phase = t.phase ∧ s.pend = t.pend ∧
    s.op = t.op ∧ s.reg = t.reg ∧ s.dly = t.dly ∧ s.newa = t.newa ∧ s.tx = t.tx ∧ s.txlen = t.txlen ∧
    s.rx = t.rx ∧ s.crc = t.crc

/-- The registers hold what accepting command `i` latched (10_state.md R29, R30). -/
def State.holds (s : State) (i : Instr) : Prop :=
  s.latched = latch i ∧ s.tx = (latch i).tx ∧ s.txlen = (latch i).txlen

/-- What holds of the registers in every reachable state (10_state.md R22, R24, R25, R27, R28, R30, R31, R32, R35). -/
structure Inv (s : State) : Prop where
  /-- PHASE is one of the five values that rules write. -/
  phase_legal : s.phase ≤ Phase.check
  /-- PEND = 1 only in WRITE, DELAY and READ. -/
  pend_phase : s.pend = true → s.phase = Phase.write ∨ s.phase = Phase.delay ∨ s.phase = Phase.read
  /-- Idle, the transient registers are zero. -/
  idle_form : s.phase = Phase.idle → s.idleForm
  /-- Busy, no result shows. -/
  busy_status : s.phase ≠ Phase.idle → s.done = false ∧ s.err = ErrKind.none.code ∧ s.value = Config.sentinel
  /-- Busy, the latched registers and the frame are those of one command. -/
  busy_holds : s.phase ≠ Phase.idle → ∃ i, s.holds i
  /-- Only a read command goes past WRITE. -/
  past_write : s.phase = Phase.delay ∨ s.phase = Phase.read ∨ s.phase = Phase.check → s.op ≠ Op.setaddr
  /-- RX holds bytes in CHECK only. -/
  rx_zero : s.phase ≠ Phase.check → s.rx = rxZero
  /-- CRC reads zero between steps. -/
  crc_zero : s.crc = 0#8
  /-- After an error VALUE is the sentinel. -/
  error_value : s.err ≠ ErrKind.none.code → s.done = true ∧ s.value = Config.sentinel
  /-- Before the end of a command there is no error and no reading. -/
  not_done : s.done = false → s.err = ErrKind.none.code ∧ s.value = Config.sentinel

/-- The events of the command in progress so far (20_memory.md R63). -/
def State.partialTrace (s : State) : List BusEvent :=
  if s.phase = Phase.idle then []
  else if s.phase = Phase.write then (if s.pend then [.write s.addr s.frame] else [])
  else if s.phase = Phase.delay then
    (if s.pend then [.write s.addr s.frame, .delay s.dly] else [.write s.addr s.frame])
  else if s.phase = Phase.read then
    (if s.pend then [.write s.addr s.frame, .delay s.dly, .read s.addr Config.replyLength]
     else [.write s.addr s.frame, .delay s.dly])
  else [.write s.addr s.frame, .delay s.dly, .read s.addr Config.replyLength]

/-- A history made of whole transactions, one after the other: each is one of the sequences of 20_memory.md R63. -/
inductive WholeTraces : List BusEvent → Prop where
  /-- No event. -/
  | empty : WholeTraces []
  /-- A read command whose write failed. -/
  | writeFailed (h : List BusEvent) (a r : Byte) : WholeTraces h → WholeTraces (h ++ [.write a [r]])
  /-- A read command that reached its read. -/
  | readDone (h : List BusEvent) (a r : Byte) (ms : Millis) :
      WholeTraces h → WholeTraces (h ++ [.write a [r], .delay ms, .read a 5])
  /-- SETADDR. -/
  | addressChange (h : List BusEvent) (a n : Byte) :
      WholeTraces h → WholeTraces (h ++ [.write a [0x21#8, n, ~~~n, n, ~~~n, 0x00#8]])

/-- The history is whole transactions and then the events of the command in progress (20_memory.md R63). -/
def TraceInv (s : State) : Prop := ∃ h, WholeTraces h ∧ s.hist = h ++ s.partialTrace

/-- Every read request is directly preceded by a delay request, and that by a write request of one byte to the same
address (95_test_vectors.md section 4, property 2). -/
def readsSettled (h : List BusEvent) : Prop :=
  ∀ before rest a n, h = before ++ BusEvent.read a n :: rest →
    n = 5 ∧ ∃ earlier r ms, before = earlier ++ [.write a [r], .delay ms]

/-- The states that steps lead to from reset, whatever the other agents offer and whenever (20_memory.md R55). -/
inductive Reachable : State → Prop where
  /-- The state after reset, with any inputs to come. -/
  | reset (p : Inputs) (e : List Inputs) : Reachable { State.reset with port := p, env := e }
  /-- One step further. -/
  | step (s t : State) : Reachable s → Machine.step s = .next t → Reachable t

/-- An answer of the transport or the delay agent is outstanding, and the port it comes on shows none
(60_exceptions.md R172). -/
abbrev State.unanswered (s : State) (p : Inputs) : Prop :=
  ((s.phase = Phase.write ∨ s.phase = Phase.read) ∧ p.tDone = false) ∨ (s.phase = Phase.delay ∧ p.dDone = false)

/-- The assumption `TRANSPORT_RESPONDS` (20_memory.md R55) over the next `k` steps, in its strictest form: in each of
them both agents answer if asked. -/
abbrev State.responsive (s : State) (k : Nat) : Prop :=
  k ≤ s.env.length + 1 ∧ ∀ p ∈ (s.port :: s.env).take k, p.tDone = true ∧ p.dDone = true

/-- The outcome of an accepted command: a row of the table of 41_transaction.md R132. -/
structure Result where
  err : ErrKind
  value : Word
  addr : Byte
  events : List BusEvent
deriving DecidableEq, Repr

/-- The outcome of a read command with register id `reg`, delay `dly` and decoding `op`, as the blocking procedure of
41_transaction.md R131 computes it from the answers; `a` is ADDR at acceptance. -/
def readResult (op : BitVec 3) (reg : Byte) (dly : Millis) (a : Byte) (wok rok : Bool) (rx : Vector Byte 5) : Result :=
  if wok = false then ⟨.transport, Config.sentinel, a, [.write a [reg]]⟩
  else if rok = false then ⟨.transport, Config.sentinel, a, [.write a [reg], .delay dly, .read a 5]⟩
  else if frameOk rx = false then ⟨.integrity, Config.sentinel, a, [.write a [reg], .delay dly, .read a 5]⟩
  else ⟨.none, decodeReading op (rawValue rx), a, [.write a [reg], .delay dly, .read a 5]⟩

/-- The outcome of SETADDR, as the blocking procedure of 43_address_change.md R150 computes it. -/
def setaddrResult (n a : Byte) (wok : Bool) : Result :=
  if wok = false then ⟨.transport, Config.sentinel, a, [.write a (addrFrame n).toList]⟩
  else ⟨.none, Config.sentinel, n, [.write a (addrFrame n).toList]⟩

/-- The state after a command with outcome `r`, given in the idle state `s`: idle, DONE = 1, the outcome shown, the
events added (41_transaction.md R132). The ports are left as they were. -/
def State.finishedWith (s : State) (r : Result) : State :=
  { s.cleared with
    err := r.err.code, value := r.value, done := true, addr := r.addr, hist := s.hist ++ r.events }

end Machine

end Sys2Proof
end

