-- ==== Sys2Proof/Certificates/Slice0/Obligations.lean ====
section
/-! DEFINITION. The statements for the provers. Each docstring names the rule or the section of the spec it formalises.
A statement that mentions a choice of the model says so and names the assumption log entry. -/

open Sys2Proof Sys2Proof.Machine

/-! ### Reset -/

/-- 10_state.md R36: every register after reset; the event history is empty and no request is outstanding. ADDR is the
open parameter `INIT_ADDR`, of which nothing is known. -/
def Obligations.ResetLeavesEveryRegisterAtItsValue : Prop :=
  State.reset.addr = Config.initAddr ∧ State.reset.value = 0xFFFFFFFF#32 ∧ State.reset.done = false ∧
    State.reset.err = 0b00#2 ∧ State.reset.phase = 0#3 ∧ State.reset.pend = false ∧ State.reset.op = 0#3 ∧
    State.reset.reg = 0x00#8 ∧ State.reset.dly = 0x0000#16 ∧ State.reset.newa = 0x00#8 ∧
    State.reset.tx.toList = [0x00#8, 0x00#8, 0x00#8, 0x00#8, 0x00#8, 0x00#8] ∧ State.reset.txlen = 0#3 ∧
    State.reset.rx.toList = [0x00#8, 0x00#8, 0x00#8, 0x00#8, 0x00#8] ∧ State.reset.crc = 0x00#8 ∧
    State.reset.hist = []

/-! ### Command words -/

/-- Words of 95_test_vectors.md section 2.2, each with its verdict; the reason a word is refused for is the model's name
for a class of 30_encoding.md R84. -/
def Obligations.SampleWordsDecode : Prop :=
  decode 0x001E1101#32 = .ok (.rdreg 0x11#8 30#16) ∧ decode 0x03E82001#32 = .ok (.rdreg 0x20#8 1000#16) ∧
    decode 0xFFFFFF01#32 = .ok (.rdreg 0xFF#8 65535#16) ∧ decode 0x00000001#32 = .ok (.rdreg 0x00#8 0#16) ∧
    decode 0x00000002#32 = .ok .getver ∧ decode 0x00000003#32 = .ok .getres ∧ decode 0x00000004#32 = .ok .gettvoc ∧
    decode 0x00002B05#32 = .ok (.setaddr 0x2B#8) ∧ decode 0x0000FF05#32 = .ok (.setaddr 0xFF#8) ∧
    decode 0x00000000#32 = .error .reservedOp ∧ decode 0x00000006#32 = .error .reservedOp ∧
    decode 0x00000007#32 = .error .reservedOp ∧ decode 0x00000009#32 = .error .nonzeroZ ∧
    decode 0x00000102#32 = .error .nonzeroA ∧ decode 0x00010003#32 = .error .nonzeroDly ∧
    decode 0x00010005#32 = .error .nonzeroDly

/-- 30_encoding.md R82, R83: every command, with every operand, is read back from its word, by the decoder and by the
reading of a row of the opcode table. -/
def Obligations.DecodeOfEncodeIsTheCommand : Prop :=
  ∀ i : Instr, i.wellFormed = true → decode (encode i) = .ok i ∧ decodeTableWord 32 (encode i).toNat = some i

/-- 30_encoding.md R82, R83: a word that decodes is the word of the command it decodes to, so no bit is ignored and no
two words stand for one command. -/
def Obligations.EncodeOfDecodeIsTheWord : Prop :=
  ∀ (w : Word) (i : Instr), decode w = .ok i → encode i = w

/-- 30_encoding.md R83: a word decodes exactly when it matches a row of the mask and match table, to that row's command
with that row's free fields; no two rows match one word. -/
def Obligations.WordDecodesExactlyWhenARowMatches : Prop :=
  (∀ (w : Word) (i : Instr), decode w = .ok i ↔
    (w &&& 0x000000FF#32 = 0x00000001#32 ∧ i = .rdreg (w.extractLsb' 8 8) (w.extractLsb' 16 16)) ∨
      (w &&& 0xFFFFFFFF#32 = 0x00000002#32 ∧ i = .getver) ∨
      (w &&& 0xFFFFFFFF#32 = 0x00000003#32 ∧ i = .getres) ∨
      (w &&& 0xFFFFFFFF#32 = 0x00000004#32 ∧ i = .gettvoc) ∨
      (w &&& 0xFFFF00FF#32 = 0x00000005#32 ∧ i = .setaddr (w.extractLsb' 8 8))) ∧
  (∀ w : Word, legalWord w = true ↔ ∃ i, decode w = .ok i) ∧
  (commandTable.map CommandRow.mnemonic = ["RDREG", "GETVER", "GETRES", "GETTVOC", "SETADDR"]) ∧
  (∀ (w : Word) (r q : CommandRow), r ∈ commandTable → q ∈ commandTable → r.accepts w = true → q.accepts w = true →
    r = q)

/-- 30_encoding.md R84: the illegal words are those with a reserved OP, a nonzero Z, a nonzero A or DLY in GETVER,
GETRES or GETTVOC, or a nonzero DLY in SETADDR. -/
def Obligations.IllegalWordsAreTheListedClasses : Prop :=
  ∀ w : Word, (∃ r, decode w = .error r) ↔
    (w.extractLsb' 0 3 = 0b000#3 ∨ w.extractLsb' 0 3 = 0b110#3 ∨ w.extractLsb' 0 3 = 0b111#3) ∨
      w.extractLsb' 3 5 ≠ 0#5 ∨
      ((w.extractLsb' 0 3 = 2#3 ∨ w.extractLsb' 0 3 = 3#3 ∨ w.extractLsb' 0 3 = 4#3) ∧
        (w.extractLsb' 8 8 ≠ 0#8 ∨ w.extractLsb' 16 16 ≠ 0#16)) ∨
      (w.extractLsb' 0 3 = 5#3 ∧ w.extractLsb' 16 16 ≠ 0#16)

/-- 30_encoding.md R85: the values that the command of a legal word latches, by OP; RDREG takes every
register id and every delay. -/
def Obligations.LegalWordLatchesItsOperands : Prop :=
  (∀ (reg : Byte) (dly : Millis), ∃ w, decode w = .ok (.rdreg reg dly)) ∧
  ∀ (w : Word) (i : Instr), decode w = .ok i →
    (w.extractLsb' 0 3 = 1#3 → latch i = ⟨1#3, w.extractLsb' 8 8, w.extractLsb' 16 16, 0x00#8⟩) ∧
    (w.extractLsb' 0 3 = 2#3 → latch i = ⟨2#3, 0x11#8, 0x001E#16, 0x00#8⟩) ∧
    (w.extractLsb' 0 3 = 3#3 → latch i = ⟨3#3, 0x20#8, 0x03E8#16, 0x00#8⟩) ∧
    (w.extractLsb' 0 3 = 4#3 → latch i = ⟨4#3, 0x00#8, 0x03E8#16, 0x00#8⟩) ∧
    (w.extractLsb' 0 3 = 5#3 → latch i = ⟨5#3, 0x21#8, 0x0000#16, w.extractLsb' 8 8⟩)

/-! ### Frames and values -/

/-- 30_encoding.md R89: the address-change frame. The clauses about the complement (it and the address add up to 255 and
differ in every bit) are 43_address_change.md R153, which the spec marks as its own inference from R89. -/
def Obligations.AddressFrameDuplicatesAndComplements : Prop :=
  (∀ n : Byte, (addrFrame n).toList = [0x21#8, n, n ^^^ 0xFF#8, n, n ^^^ 0xFF#8, 0x00#8] ∧
    (latch (.setaddr n)).tx = addrFrame n ∧ (latch (.setaddr n)).txlen = 6#3 ∧
    n.toNat + (addrFrame n)[2].toNat = 255 ∧ n ^^^ (addrFrame n)[2] = 0xFF#8) ∧
  (addrFrame 0x2B#8).toList = [0x21#8, 0x2B#8, 0xD4#8, 0x2B#8, 0xD4#8, 0x00#8]

/-- 30_encoding.md R86, R89; 41_transaction.md R123: while a command is in progress and its operands are held, the frame
that its write carries is the one byte REG for a read command and the six-byte frame for SETADDR. -/
def Obligations.FrameHeldIsTheCommandsFrame : Prop :=
  ∀ (s : State) (i : Instr), s.holds i →
    (i.isRead = true → s.frame = [s.reg]) ∧
    (∀ n, i = .setaddr n → s.frame = [0x21#8, n, ~~~n, n, ~~~n, 0x00#8])

/-- 20_memory.md R57, 30_encoding.md R87: the first received byte is the most significant, and byte i received is bits
8i+7 to 8i of the transport's answer (20_memory.md R51). -/
def Obligations.RawValueIsBigEndian : Prop :=
  (∀ rx : Vector Byte 5, (rawValue rx).toNat =
    rx[0].toNat * 2 ^ 24 + rx[1].toNat * 2 ^ 16 + rx[2].toNat * 2 ^ 8 + rx[3].toNat) ∧
  (∀ d : BitVec 40, ∀ i : Fin 5, (replyBytes d)[i] = d.extractLsb' (8 * i) 8)

/-- 42_decoder.md R140: the decoding of each reading, in exact arithmetic. -/
def Obligations.DecodingOfEachReading : Prop :=
  ∀ raw : Word, decodeReading 1#3 raw = raw ∧ decodeReading 2#3 raw = raw ∧
    (decodeReading 3#3 raw).toNat = raw.toNat * 100 % 2 ^ 32 ∧
    (decodeReading 4#3 raw).toNat = raw.toNat % 2 ^ 24

/-! ### Checksum -/

/-- 40_checksum.md R111: one round, in exact arithmetic, and the rule's examples. -/
def Obligations.ChecksumRoundShiftsAndReduces : Prop :=
  (∀ a : Byte, (crc8Round a).toNat =
    if 128 ≤ a.toNat then (2 * a.toNat % 256) ^^^ 0x31 else 2 * a.toNat % 256) ∧
  crc8Round 0xFF#8 = 0xCF#8 ∧ crc8Round 0x6F#8 = 0xDE#8 ∧ crc8Round 0x80#8 = 0x31#8 ∧ crc8Round 0x00#8 = 0x00#8

/-- 40_checksum.md R112, R113: eight rounds after one exclusive or; the fold from `0xFF` in index order; the worked
example with its intermediate values. -/
def Obligations.ChecksumFoldsEveryByteInOrder : Prop :=
  (∀ a b : Byte, crc8Byte a b = crc8Round^[8] (a ^^^ b)) ∧
  (List.range 9).map (fun k => crc8Round^[k] (0xFF#8 ^^^ 0x00#8)) =
    [0xFF#8, 0xCF#8, 0xAF#8, 0x6F#8, 0xDE#8, 0x8D#8, 0x2B#8, 0x56#8, 0xAC#8] ∧
  crc8Byte 0xFF#8 0x00#8 = 0xAC#8 ∧ crc8Byte 0xFF#8 0xFF#8 = 0x00#8 ∧ crc8Byte 0x00#8 0x00#8 = 0x00#8 ∧
  (∀ rx : Vector Byte 5, frameChecksum rx = crc8 [rx[0], rx[1], rx[2], rx[3]]) ∧
  crc8 [] = 0xFF#8 ∧ (∀ (s : List Byte) (b : Byte), crc8 (s ++ [b]) = crc8Byte (crc8 s) b) ∧
  crc8 [0x12#8] = 0x8D#8 ∧ crc8 [0x12#8, 0x34#8] = 0x37#8 ∧ crc8 [0x12#8, 0x34#8, 0x56#8] = 0x8A#8 ∧
  crc8 [0x12#8, 0x34#8, 0x56#8, 0x78#8] = 0xE0#8

/-- 40_checksum.md R114: a frame is good exactly when its last byte is the checksum of the first four, and for every
four data bytes exactly one last byte makes it good. -/
def Obligations.FrameGoodForExactlyOneChecksum : Prop :=
  (∀ rx : Vector Byte 5, frameOk rx = true ↔ crc8 (rx.toList.take 4) = rx[4]) ∧
  (∀ d0 d1 d2 d3 : Byte, ∃ c : Byte, ∀ x : Byte, frameOk #v[d0, d1, d2, d3, x] = true ↔ x = c)

/-- 95_test_vectors.md section 2.1, from 40_checksum.md R111 to R113: a sequence followed by its own checksum has
checksum zero. -/
def Obligations.ChecksumOfSequenceWithItsChecksumIsZero : Prop :=
  ∀ s : List Byte, crc8 (s ++ [crc8 s]) = 0#8

/-- 95_test_vectors.md section 2.1 (`frame_ok`), from 40_checksum.md R111 to R114: a good frame in which one of the five
bytes is changed, in any way, is not good. -/
def Obligations.OneChangedByteIsDetected : Prop :=
  ∀ (rx : Vector Byte 5) (i : Fin 5) (b : Byte), frameOk rx = true → b ≠ rx[i] → frameOk (rx.set i b) = false

/-! ### A step of the machine -/

/-- 41_transaction.md R120, 10_state.md R27: an idle engine runs the command that the offered word decodes to, a busy
engine the command in progress; then the ports move on (assumption log 3). -/
def Obligations.StepRunsTheDecodedCommand : Prop :=
  (∀ (s : State) (i : Instr), s.phase = 0#3 → s.port.cmdValid = true → decode s.port.cmd = .ok i →
    step s = after (exec i s)) ∧
  (∀ (s : State) (i : Instr), s.phase ≠ 0#3 → s.latched = latch i → step s = after (exec i s)) ∧
  (∀ (i : Instr) (s t : State), exec i s = .next t →
    after (exec i s) = .next { t with port := t.env.headD Inputs.silent, env := t.env.tail })

/-- The model's way to present a word (assumption log 6): the very next step accepts the command it encodes, whatever
the engine was doing, and nothing is left on the command port but what the environment offers next. -/
def Obligations.PresentedWordIsAcceptedNext : Prop :=
  ∀ (s : State) (i : Instr), ∃ t : State,
    step (s.withFetchWord 32 (encode i).toNat) = .next t ∧ t.latched = latch i ∧ t.phase = 1#3 ∧ t.pend = false ∧
      t.done = false ∧ t.addr = s.addr ∧ t.hist = s.hist ∧ t.port = s.env.headD Inputs.silent ∧ t.env = s.env.tail

/-- 41_transaction.md R121, at the level of a machine step: the offered legal word is accepted, with exactly these
effects on the registers, and nothing is appended to the history. -/
def Obligations.IdleEngineAcceptsLegalWord : Prop :=
  ∀ (s : State) (i : Instr), s.phase = 0#3 → s.port.cmdValid = true → decode s.port.cmd = .ok i →
    ∃ t, step s = .next t ∧ t.hist = s.hist ∧ t.sameRegisters
      { s with
        op := (latch i).op, reg := (latch i).reg, dly := (latch i).dly, newa := (latch i).newa,
        tx := if (latch i).op = 5#3 then addrFrame (latch i).newa
          else #v[(latch i).reg, 0x00#8, 0x00#8, 0x00#8, 0x00#8, 0x00#8],
        txlen := if (latch i).op = 5#3 then 6#3 else 1#3,
        done := false, err := 0b00#2, value := 0xFFFFFFFF#32, pend := false, phase := 1#3 }

/-- 41_transaction.md R121 with 30_encoding.md R85, R86, R89: what each of the five commands does when it is accepted,
with every value written out. -/
def Obligations.AcceptanceOfEachCommand : Prop :=
  ∀ s : State, s.phase = 0#3 →
    (∀ (reg : Byte) (dly : Millis), exec (.rdreg reg dly) s = .next
      { s with
        op := 1#3, reg := reg, dly := dly, newa := 0x00#8, tx := #v[reg, 0#8, 0#8, 0#8, 0#8, 0#8], txlen := 1#3,
        done := false, err := 0b00#2, value := 0xFFFFFFFF#32, pend := false, phase := 1#3 }) ∧
    exec .getver s = .next
      { s with
        op := 2#3, reg := 0x11#8, dly := 30#16, newa := 0x00#8, tx := #v[0x11#8, 0#8, 0#8, 0#8, 0#8, 0#8],
        txlen := 1#3, done := false, err := 0b00#2, value := 0xFFFFFFFF#32, pend := false, phase := 1#3 } ∧
    exec .getres s = .next
      { s with
        op := 3#3, reg := 0x20#8, dly := 1000#16, newa := 0x00#8, tx := #v[0x20#8, 0#8, 0#8, 0#8, 0#8, 0#8],
        txlen := 1#3, done := false, err := 0b00#2, value := 0xFFFFFFFF#32, pend := false, phase := 1#3 } ∧
    exec .gettvoc s = .next
      { s with
        op := 4#3, reg := 0x00#8, dly := 1000#16, newa := 0x00#8, tx := #v[0x00#8, 0#8, 0#8, 0#8, 0#8, 0#8],
        txlen := 1#3, done := false, err := 0b00#2, value := 0xFFFFFFFF#32, pend := false, phase := 1#3 } ∧
    (∀ n : Byte, exec (.setaddr n) s = .next
      { s with
        op := 5#3, reg := 0x21#8, dly := 0#16, newa := n, tx := #v[0x21#8, n, ~~~n, n, ~~~n, 0x00#8], txlen := 6#3,
        done := false, err := 0b00#2, value := 0xFFFFFFFF#32, pend := false, phase := 1#3 })

/-- 41_transaction.md R122: an illegal word given to an idle engine finishes at once and nothing else changes. That the
word is consumed is rendered by the move of the ports, the model's choice (assumption log 3). -/
def Obligations.IdleEngineRejectsIllegalWord : Prop :=
  ∀ (s : State) (r : Reject), s.phase = 0#3 → s.port.cmdValid = true → decode s.port.cmd = .error r →
    step s = .next (State.tick { s with done := true, err := 0b11#2, value := 0xFFFFFFFF#32 })

/-- 41_transaction.md R123, for every command in progress: the write request goes to ADDR and carries TX[0..TXLEN],
which is the one byte REG for a read command and the six-byte frame for SETADDR. -/
def Obligations.WriteIssueRequestsTheFrame : Prop :=
  ∀ (i : Instr) (s : State), s.phase = 1#3 → s.pend = false → s.latched = latch i →
    exec i s = .next
      { s with hist := s.hist ++ [.write s.addr (s.tx.toList.take s.txlen.toNat)], pend := true } ∧
    (s.holds i → i.isRead = true → exec i s = .next
      { s with hist := s.hist ++ [.write s.addr [(latch i).reg]], pend := true }) ∧
    (∀ n, s.holds i → i = .setaddr n → exec i s = .next
      { s with hist := s.hist ++ [.write s.addr [0x21#8, n, ~~~n, n, ~~~n, 0x00#8]], pend := true })

/-- 41_transaction.md R124, for every command in progress: a failed write ends it with TRANSPORT, a successful one ends
SETADDR with the new ADDR and takes a read command to the delay. -/
def Obligations.WriteResponseEndsOrGoesOn : Prop :=
  ∀ (i : Instr) (s : State), s.phase = 1#3 → s.pend = true → s.port.tDone = true → s.latched = latch i →
    (s.port.tOk = false → exec i s = .next (complete .transport 0xFFFFFFFF#32 s)) ∧
    (s.port.tOk = true → s.op = 5#3 → exec i s = .next (complete .none 0xFFFFFFFF#32 { s with addr := s.newa })) ∧
    (s.port.tOk = true → s.op ≠ 5#3 → exec i s = .next { s with pend := false, phase := 2#3 })

/-- 41_transaction.md R125, for every delay, also 0. -/
def Obligations.DelayIssueRequestsTheDelay : Prop :=
  ∀ (i : Instr) (s : State), s.phase = 2#3 → s.pend = false → s.latched = latch i →
    exec i s = .next { s with hist := s.hist ++ [.delay s.dly], pend := true }

/-- 41_transaction.md R126: the delay's answer carries no data and cannot fail. -/
def Obligations.DelayResponseGoesToRead : Prop :=
  ∀ (i : Instr) (s : State), s.phase = 2#3 → s.pend = true → s.port.dDone = true → s.latched = latch i →
    exec i s = .next { s with pend := false, phase := 3#3 }

/-- 41_transaction.md R127: exactly five bytes from ADDR. -/
def Obligations.ReadIssueRequestsFiveBytes : Prop :=
  ∀ (i : Instr) (s : State), s.phase = 3#3 → s.pend = false → s.latched = latch i →
    exec i s = .next { s with hist := s.hist ++ [.read s.addr 5], pend := true }

/-- 41_transaction.md R128: a failed read ends the command with TRANSPORT and its bytes are ignored; else RX takes the
bytes in the order received. -/
def Obligations.ReadResponseStoresOrEnds : Prop :=
  ∀ (i : Instr) (s : State), s.phase = 3#3 → s.pend = true → s.port.tDone = true → s.latched = latch i →
    (s.port.tOk = false → exec i s = .next (complete .transport 0xFFFFFFFF#32 s)) ∧
    (s.port.tOk = true → exec i s = .next
      { s with
        rx := #v[s.port.tRdata.extractLsb' 0 8, s.port.tRdata.extractLsb' 8 8, s.port.tRdata.extractLsb' 16 8,
          s.port.tRdata.extractLsb' 24 8, s.port.tRdata.extractLsb' 32 8],
        pend := false, phase := 4#3 })

/-- 41_transaction.md R129: the checksum of the first four bytes against the fifth; INTEGRITY, or the decoding of the
big-endian value. CRC is cleared by the same step. -/
def Obligations.CheckStepComparesThenDecodes : Prop :=
  ∀ (i : Instr) (s : State), s.phase = 4#3 → s.latched = latch i →
    (crc8 [s.rx[0], s.rx[1], s.rx[2], s.rx[3]] ≠ s.rx[4] →
      exec i s = .next (complete .integrity 0xFFFFFFFF#32 s)) ∧
    (crc8 [s.rx[0], s.rx[1], s.rx[2], s.rx[3]] = s.rx[4] →
      exec i s = .next (complete .none (decodeReading s.op (be32 s.rx[0] s.rx[1] s.rx[2] s.rx[3])) s))

/-- 41_transaction.md R130: what completion writes and clears, ADDR and the history left alone; that the engine is then
in the idle form and ready; and that a command that ends with an error shows the sentinel. -/
def Obligations.CompletionReportsAndClears : Prop :=
  (∀ s t : State, s.phase ≠ 0#3 → step s = .next t → t.phase = 0#3 → t.err ≠ 0b00#2 → t.value = 0xFFFFFFFF#32) ∧
  ∀ (e : ErrKind) (v : Word) (s : State),
    complete e v s =
      { s with
        err := e.code, value := v, done := true, op := 0#3, reg := 0x00#8, dly := 0#16, newa := 0x00#8,
        tx := #v[0x00#8, 0x00#8, 0x00#8, 0x00#8, 0x00#8, 0x00#8], txlen := 0#3,
        rx := #v[0x00#8, 0x00#8, 0x00#8, 0x00#8, 0x00#8], crc := 0x00#8, pend := false, phase := 0#3 } ∧
    (complete e v s).idleForm ∧ (complete e v s).cmdReady = true

/-- 41_transaction.md R131, 42_decoder.md R141 to R143: the result of each read command on a good frame, computed from
the four data bytes in exact arithmetic; every register but VALUE, DONE and ERR is in the idle form, ADDR and the
history are as before. -/
def Obligations.ReadCommandsReturnTheirReading : Prop :=
  ∀ (s : State) (raw : Nat), s.phase = 4#3 → frameOk s.rx = true →
    raw = s.rx[0].toNat * 2 ^ 24 + s.rx[1].toNat * 2 ^ 16 + s.rx[2].toNat * 2 ^ 8 + s.rx[3].toNat →
    (∀ (reg : Byte) (dly : Millis), s.latched = latch (.rdreg reg dly) → exec (.rdreg reg dly) s = .next
      { s.cleared with value := BitVec.ofNat 32 raw, done := true, err := 0b00#2 }) ∧
    (s.latched = latch .getver → exec .getver s = .next
      { s.cleared with value := BitVec.ofNat 32 raw, done := true, err := 0b00#2 }) ∧
    (s.latched = latch .getres → exec .getres s = .next
      { s.cleared with value := BitVec.ofNat 32 (raw * 100), done := true, err := 0b00#2 }) ∧
    (s.latched = latch .gettvoc → exec .gettvoc s = .next
      { s.cleared with value := BitVec.ofNat 32 (raw % 2 ^ 24), done := true, err := 0b00#2 })

/-- 43_address_change.md R150, R151: the write-response step of SETADDR, for both answers; on success ADDR takes the
operand in the step that completes the command, on failure it stays. -/
def Obligations.SetaddrFollowsTheTransport : Prop :=
  ∀ (n : Byte) (s : State), s.phase = 1#3 → s.pend = true → s.port.tDone = true → s.latched = latch (.setaddr n) →
    (s.port.tOk = true → exec (.setaddr n) s = .next
      { s.cleared with addr := n, value := 0xFFFFFFFF#32, done := true, err := 0b00#2 }) ∧
    (s.port.tOk = false → exec (.setaddr n) s = .next
      { s.cleared with value := 0xFFFFFFFF#32, done := true, err := 0b01#2 })

/-- 41_transaction.md R120, 70_reset_and_hazards.md R187 (assumption log 5): a command that is not the one in progress
is held, and leaves the whole state alone. -/
def Obligations.OtherCommandIsHeld : Prop :=
  ∀ (i : Instr) (s : State), s.phase ≠ 0#3 → s.latched ≠ latch i → exec i s = .next s

/-- 60_exceptions.md R166, R167: raising an error leaves the engine idle with the kind and the sentinel, ADDR and the
history alone; the next command is accepted as after a success, and clears DONE and ERR. -/
def Obligations.ErrorLeavesTheEngineReady : Prop :=
  ∀ (e : ErrKind) (s : State) (i : Instr),
    (raiseError e s).err = e.code ∧ (raiseError e s).value = 0xFFFFFFFF#32 ∧ (raiseError e s).done = true ∧
      (raiseError e s).phase = 0#3 ∧ (raiseError e s).addr = s.addr ∧ (raiseError e s).hist = s.hist ∧
      ∃ t, exec i (raiseError e s) = .next t ∧ t.done = false ∧ t.err = 0b00#2 ∧ t.latched = latch i

/-- No command and no step of the machine ends in a fault or a refusal: 60_exceptions.md R168 ("there is no state in
which the engine itself is broken"), an inference that the spec marks as its own. That a step in which nothing is
enabled answers the same registers, and is no end of the run, is the model's reading (assumption log 4). -/
def Obligations.EveryStepAnswersANextState : Prop :=
  (∀ s : State, ∃ t, step s = .next t) ∧ (∀ (i : Instr) (s : State), ∃ t, exec i s = .next t)

/-! ### Frames -/

/-- What a command leaves alone (20_memory.md R55, R62; 10_state.md R21, R22, R29 to R32): the inputs; ADDR, but for the
successful write response of SETADDR, which loads its operand; the history, but for the event of an issue step of the
command in progress, which is `W(ADDR, TX[0..TXLEN])` in WRITE (41_transaction.md R123), `D(DLY)` in DELAY (R125) and
`R(ADDR, 5)` in READ (R127), and such a step changes nothing else but PEND; and, from one busy state to the next, every
register but PHASE, PEND and, in the read response, RX. -/
def Obligations.CommandsLeaveTheRestAlone : Prop :=
  ∀ (i : Instr) (s t : State), exec i s = .next t →
    t.port = s.port ∧ t.env = s.env ∧
    (t.addr = s.addr ∨ ∃ n, i = .setaddr n ∧ t.addr = n ∧ s.phase = 1#3 ∧ s.pend = true ∧ s.port.tDone = true ∧
      s.port.tOk = true) ∧
    (t.hist = s.hist ++
      (if s.latched = latch i ∧ s.pend = false then
        (if s.phase = 1#3 then [.write s.addr s.frame]
        else if s.phase = 2#3 then [.delay s.dly]
        else if s.phase = 3#3 then [.read s.addr Config.replyLength]
        else [])
      else [])) ∧
    (t.hist ≠ s.hist → t = { s with hist := t.hist, pend := true }) ∧
    (s.phase ≠ 0#3 → t.phase ≠ 0#3 →
      t.addr = s.addr ∧ t.value = s.value ∧ t.done = s.done ∧ t.err = s.err ∧ t.op = s.op ∧ t.reg = s.reg ∧
        t.dly = s.dly ∧ t.newa = s.newa ∧ t.tx = s.tx ∧ t.txlen = s.txlen ∧ t.crc = s.crc ∧
        (s.phase ≠ 3#3 → t.rx = s.rx))

/-- 10_state.md R21: a step of the machine changes ADDR only as the successful write response of SETADDR, which loads
NEWA. -/
def Obligations.AddrIsWrittenOnlyBySetaddr : Prop :=
  ∀ s t : State, step s = .next t → t.addr ≠ s.addr →
    s.phase = 1#3 ∧ s.pend = true ∧ s.port.tDone = true ∧ s.port.tOk = true ∧ s.op = 5#3 ∧ t.addr = s.newa

/-- 60_exceptions.md R161 to R163: a step that changes ERR to an error kind is the step the rules name for that kind. -/
def Obligations.EachErrorKindHasItsStep : Prop :=
  ∀ s t : State, step s = .next t → t.err ≠ s.err →
    (t.err = 0b01#2 → (s.phase = 1#3 ∨ s.phase = 3#3) ∧ s.pend = true ∧ s.port.tDone = true ∧ s.port.tOk = false) ∧
    (t.err = 0b10#2 → s.phase = 4#3 ∧ crc8 [s.rx[0], s.rx[1], s.rx[2], s.rx[3]] ≠ s.rx[4]) ∧
    (t.err = 0b11#2 → s.phase = 0#3 ∧ s.port.cmdValid = true ∧ ∃ r, decode s.port.cmd = .error r)

/-- 10_state.md R27: the next phases of each phase. -/
def Obligations.PhaseFollowsItsOrder : Prop :=
  ∀ s t : State, Inv s → step s = .next t →
    (s.phase = 0#3 → t.phase = 0#3 ∨ t.phase = 1#3) ∧
    (s.phase = 1#3 → t.phase = 1#3 ∨ t.phase = 0#3 ∨ (t.phase = 2#3 ∧ s.op ≠ 5#3)) ∧
    (s.phase = 2#3 → t.phase = 2#3 ∨ t.phase = 3#3) ∧
    (s.phase = 3#3 → t.phase = 3#3 ∨ t.phase = 0#3 ∨ t.phase = 4#3) ∧
    (s.phase = 4#3 → t.phase = 0#3)

/-! ### What the engine shows -/

/-- 10_state.md R25: BUSY, `cmd_ready`, the fields of STATUS; and that BUSY = 1 implies DONE = 0 in every reachable
state, which the rule marks as the spec's own inference. -/
def Obligations.StatusWordFields : Prop :=
  (∀ s : State, (s.busy = true ↔ s.phase ≠ 0#3) ∧ s.cmdReady = !s.busy ∧
    s.status.getLsbD 0 = s.busy ∧ s.status.getLsbD 1 = s.done ∧ s.status.extractLsb' 2 2 = s.err ∧
    s.status.extractLsb' 4 28 = 0#28) ∧
  (∀ s : State, Reachable s → s.busy = true → s.done = false)

/-- 10_state.md R26: the register numbers, what reading each gives, and what writing CMD does; that CMD gives no value
and that the others take none is how the model renders "write-only" and "read-only" (assumption log 7). -/
def Obligations.HostRegistersReadAsNumbered : Prop :=
  HostReg.cmd.number = 0#2 ∧ HostReg.status.number = 1#2 ∧ HostReg.value.number = 2#2 ∧ HostReg.addr.number = 3#2 ∧
    ∀ s : State, s.hostRead .cmd = none ∧ s.hostRead .status = some s.status ∧ s.hostRead .value = some s.value ∧
      (∃ v, s.hostRead .addr = some v ∧ v.toNat = s.addr.toNat) ∧
      (∀ w, ∃ t, s.hostWrite w .cmd = some t ∧ t.port.cmdValid = true ∧ t.port.cmd = w ∧ t.sameRegisters s ∧
        t.hist = s.hist ∧ t.env = s.env) ∧
      (∀ w, s.hostWrite w .status = none ∧ s.hostWrite w .value = none ∧ s.hostWrite w .addr = none)

/-- 20_memory.md R51, R62: a step appends to the history exactly the request that the output ports show in that step,
with `t_wdata` numbered byte by byte, and nothing when they show none. -/
def Obligations.HistoryRecordsTheRequestOnThePorts : Prop :=
  ∀ s t : State, Inv s → step s = .next t →
    (s.outputs.tReq = true → s.outputs.tRw = some false →
      ∃ f len w, s.outputs.tLen = some len ∧ s.outputs.tWdata = some w ∧
        t.hist = s.hist ++ [.write s.outputs.tAddr f] ∧ f.length = len.toNat ∧
        (∀ k b, f[k]? = some b → w.extractLsb' (8 * k) 8 = b) ∧
        (∀ k, len.toNat ≤ k → k < 6 → w.extractLsb' (8 * k) 8 = 0#8)) ∧
    (s.outputs.tReq = true → s.outputs.tRw = some true →
      ∃ len, s.outputs.tLen = some len ∧ t.hist = s.hist ++ [.read s.outputs.tAddr len.toNat]) ∧
    (s.outputs.dReq = true → t.hist = s.hist ++ [.delay s.outputs.dMs]) ∧
    (s.outputs.tReq = false → s.outputs.dReq = false → t.hist = s.hist)

/-! ### Invariants -/

/-- The invariants hold right after reset, whatever the other agents will offer. -/
def Obligations.InvariantsHoldAtReset : Prop :=
  ∀ (p : Inputs) (e : List Inputs),
    Inv { State.reset with port := p, env := e } ∧ TraceInv { State.reset with port := p, env := e }

/-- 10_state.md R22, R24, R25, R27, R28, R30, R31, R32, R35; 60_exceptions.md R168: every step of the machine keeps the
register invariant, from every state that meets it. The clauses are in part rules and in part inferences that the spec
marks as its own (R25, R35, R168). -/
def Obligations.StepKeepsTheRegisterInvariant : Prop :=
  ∀ s t : State, Inv s → step s = .next t → Inv t

/-- 20_memory.md R63: every step keeps the history made of whole transactions followed by the events of the command in
progress. -/
def Obligations.StepKeepsTheHistoryWhole : Prop :=
  ∀ s t : State, Inv s → TraceInv s → step s = .next t → TraceInv t

/-- 10_state.md R35, which the spec marks as its own inference: every reachable state with PHASE = 0 has the idle form,
and two idle states agree in every register exactly when ADDR, VALUE, DONE and ERR agree. -/
def Obligations.ReachableIdleStatesHaveTheIdleForm : Prop :=
  (∀ s : State, Reachable s → s.phase = 0#3 →
    s.pend = false ∧ s.op = 0#3 ∧ s.reg = 0#8 ∧ s.dly = 0#16 ∧ s.newa = 0#8 ∧
      s.tx.toList = [0#8, 0#8, 0#8, 0#8, 0#8, 0#8] ∧ s.txlen = 0#3 ∧
      s.rx.toList = [0#8, 0#8, 0#8, 0#8, 0#8] ∧ s.crc = 0#8) ∧
  (∀ s t : State, Reachable s → Reachable t → s.phase = 0#3 → t.phase = 0#3 →
    (s.sameRegisters t ↔ s.addr = t.addr ∧ s.value = t.value ∧ s.done = t.done ∧ s.err = t.err))

/-- 95_test_vectors.md section 4, property 2; 20_memory.md R63, R64: in the history of every reachable state each read
of five bytes is directly preceded by a delay and that by a write of one byte to the same address. -/
def Obligations.EveryReadFollowsItsWriteAndDelay : Prop :=
  ∀ s : State, Reachable s → readsSettled s.hist

/-! ### Whole commands -/

/-- 41_transaction.md R131, 20_memory.md R63 and the table of R132, which the spec marks as its own inference (the
runs take their inputs from the model's ports, assumption log 3): a read command whose write and read are answered,
after any waits and whatever else the ports show meanwhile, ends with the outcome of the table: INTEGRITY and the
sentinel for a bad frame, the decoded reading for a good one. -/
def Obligations.ReadCommandRunsToItsOutcome : Prop :=
  ∀ (s : State) (i : Instr) (p1 pa p2 pb p3 pc p4 : Inputs) (w1 w2 w3 rest : List Inputs),
    s.phase = 0#3 → s.idleForm → s.port.cmdValid = true → decode s.port.cmd = .ok i → i.isRead = true →
    s.env = p1 :: (w1 ++ pa :: p2 :: (w2 ++ pb :: p3 :: (w3 ++ pc :: p4 :: rest))) →
    (∀ p ∈ w1, p.tDone = false) → pa.tDone = true → pa.tOk = true →
    (∀ p ∈ w2, p.dDone = false) → pb.dDone = true →
    (∀ p ∈ w3, p.tDone = false) → pc.tDone = true → pc.tOk = true →
    Host.Core.run Sys2Proof.core (8 + w1.length + w2.length + w3.length) s = .next
      { s.finishedWith
          (readResult (latch i).op (latch i).reg (latch i).dly s.addr true true (replyBytes pc.tRdata)) with
        port := rest.headD Inputs.silent, env := rest.tail }

/-- 41_transaction.md R131 and the table of R132, the spec's own inference (assumption log 3): a read command whose
read fails ends with TRANSPORT after the three events. -/
def Obligations.ReadCommandEndsWhenItsReadFails : Prop :=
  ∀ (s : State) (i : Instr) (p1 pa p2 pb p3 pc : Inputs) (w1 w2 w3 rest : List Inputs),
    s.phase = 0#3 → s.idleForm → s.port.cmdValid = true → decode s.port.cmd = .ok i → i.isRead = true →
    s.env = p1 :: (w1 ++ pa :: p2 :: (w2 ++ pb :: p3 :: (w3 ++ pc :: rest))) →
    (∀ p ∈ w1, p.tDone = false) → pa.tDone = true → pa.tOk = true →
    (∀ p ∈ w2, p.dDone = false) → pb.dDone = true →
    (∀ p ∈ w3, p.tDone = false) → pc.tDone = true → pc.tOk = false →
    Host.Core.run Sys2Proof.core (7 + w1.length + w2.length + w3.length) s = .next
      { s.finishedWith
          (readResult (latch i).op (latch i).reg (latch i).dly s.addr true false (replyBytes pc.tRdata)) with
        port := rest.headD Inputs.silent, env := rest.tail }

/-- 41_transaction.md R124, the table of R132, the spec's own inference, and 95_test_vectors.md S6 (assumption log 3):
a read command whose write fails ends with TRANSPORT, and the history gains the write and nothing else. -/
def Obligations.ReadCommandShortCircuitsWhenItsWriteFails : Prop :=
  ∀ (s : State) (i : Instr) (p1 pa : Inputs) (w1 rest : List Inputs) (rok : Bool) (rx : Vector Byte 5),
    s.phase = 0#3 → s.idleForm → s.port.cmdValid = true → decode s.port.cmd = .ok i → i.isRead = true →
    s.env = p1 :: (w1 ++ pa :: rest) →
    (∀ p ∈ w1, p.tDone = false) → pa.tDone = true → pa.tOk = false →
    Host.Core.run Sys2Proof.core (3 + w1.length) s = .next
      { s.finishedWith (readResult (latch i).op (latch i).reg (latch i).dly s.addr false rok rx) with
        port := rest.headD Inputs.silent, env := rest.tail }

/-- 43_address_change.md R150 and the table of 41_transaction.md R132, the spec's own inference (assumption log 3):
SETADDR, for both answers of the transport, after any wait: one event to the old address, no delay and no read. -/
def Obligations.SetaddrRunsToItsOutcome : Prop :=
  ∀ (s : State) (n : Byte) (p1 pa : Inputs) (w1 rest : List Inputs),
    s.phase = 0#3 → s.idleForm → s.port.cmdValid = true → decode s.port.cmd = .ok (.setaddr n) →
    s.env = p1 :: (w1 ++ pa :: rest) →
    (∀ p ∈ w1, p.tDone = false) → pa.tDone = true →
    Host.Core.run Sys2Proof.core (3 + w1.length) s = .next
      { s.finishedWith (setaddrResult n s.addr pa.tOk) with
        port := rest.headD Inputs.silent, env := rest.tail }

/-- 30_encoding.md R94, which the spec marks as its own inference: GETVER and RDREG `0x11`, 30 cannot be told apart by
ADDR, VALUE, DONE, ERR, BUSY or the history, after any number of steps and for every behaviour of the other agents
(the runs take their inputs from the model's ports, assumption log 3). -/
def Obligations.GetverActsAsItsRdreg : Prop :=
  ∀ (s : State) (k : Nat), s.phase = 0#3 →
    ∃ t u, Host.Core.run Sys2Proof.core k (s.offer (encode .getver)) = .next t ∧
      Host.Core.run Sys2Proof.core k (s.offer (encode (.rdreg 0x11#8 30#16))) = .next u ∧
      t.addr = u.addr ∧ t.value = u.value ∧ t.done = u.done ∧ t.err = u.err ∧ t.busy = u.busy ∧ t.hist = u.hist

/-- 60_exceptions.md R172 (the model renders "no step is enabled" as a step that keeps every register, assumption log
4): while the outstanding request gets no answer, every register keeps its value for any number of steps, whatever
commands are offered: busy, not done, no error, no event. -/
def Obligations.UnansweredEngineIsStuck : Prop :=
  ∀ (s : State) (k : Nat), Inv s → s.pend = true → (∀ p ∈ s.port :: s.env, s.unanswered p) →
    ∃ t, Host.Core.run Sys2Proof.core k s = .next t ∧ t.sameRegisters s ∧ t.hist = s.hist ∧ t.busy = true ∧
      t.done = false ∧ t.err = 0b00#2

/-- 20_memory.md R55, 41_transaction.md section 3: under the assumption `TRANSPORT_RESPONDS` a command in progress
completes, here within seven steps in which both agents answer if asked. The count of seven rests on the model's one
sample of the ports a step (assumption log 3). -/
def Obligations.AnsweredEngineFinishes : Prop :=
  ∀ s : State, Inv s → s.busy = true → s.responsive 7 →
    ∃ k t, k ≤ 7 ∧ Host.Core.run Sys2Proof.core k s = .next t ∧ t.busy = false ∧ t.done = true

/-! ### What cannot be learnt or disturbed -/

/-- 41_transaction.md R120, 70_reset_and_hazards.md R187, 20_memory.md R66: what is offered on the command port while a
command is in progress changes nothing, in the step or after it. -/
def Obligations.BusyEngineIgnoresTheCommandPort : Prop :=
  ∀ (s : State) (v : Bool) (w : Word), s.phase ≠ 0#3 →
    step { s with port := { s.port with cmdValid := v, cmd := w } } = step s

/-- 10_state.md R31, 40_checksum.md R114: of a frame that fails its checksum nothing remains: any two such frames lead
to the very same state. -/
def Obligations.UntrustedBytesLeaveNoTrace : Prop :=
  ∀ (s : State) (rx : Vector Byte 5), s.phase = 4#3 → frameOk s.rx = false → frameOk rx = false →
    step { s with rx := rx } = step s

/-- 42_decoder.md R144, which the spec marks as its own inference: a good GETRES or GETTVOC never shows the sentinel;
a good RDREG or GETVER shows it exactly for four data bytes `0xFF` with checksum `0x66`. -/
def Obligations.GoodReadingEqualsSentinelOnlyForAllOnes : Prop :=
  ∀ s t : State, s.phase = 4#3 → step s = .next t → t.done = true → t.err = 0b00#2 →
    (s.op = 3#3 → t.value ≠ 0xFFFFFFFF#32) ∧
    (s.op = 4#3 → t.value ≤ 0x00FFFFFF#32) ∧
    (s.op = 1#3 ∨ s.op = 2#3 → (t.value = 0xFFFFFFFF#32 ↔
      s.rx.toList = [0xFF#8, 0xFF#8, 0xFF#8, 0xFF#8, 0x66#8]))

/-- 95_test_vectors.md section 4, property 4 (the spec's own inference): a step that ends a read command with success
is the CHECK step of a good frame, and VALUE is the decoding of that frame. -/
def Obligations.SuccessMeansAGoodFrame : Prop :=
  ∀ s t : State, s.phase ≠ 0#3 → s.op ≠ 5#3 → step s = .next t → t.phase = 0#3 → t.succeeded = true →
    s.phase = 4#3 ∧ crc8 [s.rx[0], s.rx[1], s.rx[2], s.rx[3]] = s.rx[4] ∧
      t.value = decodeReading s.op (be32 s.rx[0] s.rx[1] s.rx[2] s.rx[3])

/-- 30_encoding.md R90, 70_reset_and_hazards.md R184, R189; 41_transaction.md R125: the delay event that each read command
requests, and for which register. GETVER requests 30 ms for `0x11`, GETRES 1000 ms for `0x20`, GETTVOC 1000 ms for
`0x00`, RDREG its own operands; and so a read command of a careful host requests the delay that the table gives for
its register. -/
def Obligations.CarefulReadsRequestTheTablesDelay : Prop :=
  ∀ s : State, s.phase = 2#3 → s.pend = false →
    (s.latched = latch .getver → s.reg = 0x11#8 ∧
      exec .getver s = .next { s with hist := s.hist ++ [.delay 30#16], pend := true }) ∧
    (s.latched = latch .getres → s.reg = 0x20#8 ∧
      exec .getres s = .next { s with hist := s.hist ++ [.delay 1000#16], pend := true }) ∧
    (s.latched = latch .gettvoc → s.reg = 0x00#8 ∧
      exec .gettvoc s = .next { s with hist := s.hist ++ [.delay 1000#16], pend := true }) ∧
    (∀ (reg : Byte) (dly : Millis), s.latched = latch (.rdreg reg dly) → s.reg = reg ∧
      exec (.rdreg reg dly) s = .next { s with hist := s.hist ++ [.delay dly], pend := true }) ∧
    (∀ i : Instr, i.isRead = true → i.careful = true → s.latched = latch i →
      exec i s = .next { s with hist := s.hist ++ [.delay (latch i).dly], pend := true } ∧
        ((s.reg = 0x00#8 ∧ (latch i).dly = 1000#16) ∨ (s.reg = 0x11#8 ∧ (latch i).dly = 30#16) ∨
          (s.reg = 0x20#8 ∧ (latch i).dly = 1000#16)))

/-- 60_exceptions.md R173, 70_reset_and_hazards.md R191, 10_state.md R22: an idle engine to which no word is offered keeps
every register and the history, in one step and in any number of them (a step in which nothing is enabled answers the
same registers: the model's reading, assumption log 4; the inputs of a run: log 3); and VALUE, DONE and ERR change only
in the step in which a word is offered to an idle engine or the command in progress ends. -/
def Obligations.QuietEngineKeepsItsRegisters : Prop :=
  (∀ s : State, s.phase = 0#3 → s.port.cmdValid = false →
    ∃ t, step s = .next t ∧ t.sameRegisters s ∧ t.hist = s.hist) ∧
  (∀ (s : State) (k : Nat), s.phase = 0#3 → (∀ p ∈ s.port :: s.env, p.cmdValid = false) →
    ∃ t, Host.Core.run Sys2Proof.core k s = .next t ∧ t.sameRegisters s ∧ t.hist = s.hist) ∧
  (∀ s t : State, step s = .next t → (t.value ≠ s.value ∨ t.done ≠ s.done ∨ t.err ≠ s.err) →
    (s.phase = 0#3 ∧ s.port.cmdValid = true) ∨ (s.phase ≠ 0#3 ∧ t.phase = 0#3))
end

