-- ==== Sys2Proof/Laws/Encoding.lean ====
section
/-! SUPPORT. The fields of a packed command word, and what the decoder can answer. -/

namespace Sys2Proof

section

variable (dly : Millis) (a : Byte) (op : BitVec 3)

/-- The bits of a packed word, field by field (30_encoding.md R82). -/
theorem getLsbD_packWord (j : Nat) : (packWord dly a op).getLsbD j =
    if j < 3 then op.getLsbD j else if j < 8 then false
    else if j < 16 then a.getLsbD (j - 8) else dly.getLsbD (j - 16) := by
  have h : (packWord dly a op).getLsbD j = BitVec.getLsbD (dly ++ a ++ 0#5 ++ op) j := rfl
  rw [h]
  simp only [BitVec.getLsbD_append, BitVec.getLsbD_zero]
  by_cases h3 : j < 3
  · rw [if_pos h3, if_pos h3]
  by_cases h8 : j < 8
  · rw [if_neg h3, if_neg h3, if_pos h8, if_pos (by omega)]
  by_cases h16 : j < 16
  · rw [if_neg h3, if_neg h3, if_neg h8, if_pos h16, if_neg (by omega), if_pos (by omega),
      show j - 3 - 5 = j - 8 by omega]
  · rw [if_neg h3, if_neg h3, if_neg h8, if_neg h16, if_neg (by omega), if_neg (by omega),
      show j - 3 - 5 - 8 = j - 16 by omega]

@[simp] theorem fieldOp_packWord : fieldOp (packWord dly a op) = op := by
  apply BitVec.eq_of_getLsbD_eq; intro i hi
  rw [fieldOp, BitVec.getLsbD_extractLsb', Nat.zero_add, getLsbD_packWord, if_pos hi]
  simp [hi]

@[simp] theorem fieldZ_packWord : fieldZ (packWord dly a op) = 0#5 := by
  apply BitVec.eq_of_getLsbD_eq; intro i hi
  rw [fieldZ, BitVec.getLsbD_extractLsb', getLsbD_packWord, if_neg (by omega), if_pos (by omega)]
  simp

@[simp] theorem fieldA_packWord : fieldA (packWord dly a op) = a := by
  apply BitVec.eq_of_getLsbD_eq; intro i hi
  rw [fieldA, BitVec.getLsbD_extractLsb', getLsbD_packWord, if_neg (by omega), if_neg (by omega), if_pos (by omega),
    show 8 + i - 8 = i by omega]
  simp [hi]

@[simp] theorem fieldDly_packWord : fieldDly (packWord dly a op) = dly := by
  apply BitVec.eq_of_getLsbD_eq; intro i hi
  rw [fieldDly, BitVec.getLsbD_extractLsb', getLsbD_packWord, if_neg (by omega), if_neg (by omega),
    if_neg (by omega), show 16 + i - 16 = i by omega]
  simp [hi]

end

/-- A word is packed from its own fields. -/
theorem packWord_fields (w : Word) : fieldDly w ++ fieldA w ++ fieldZ w ++ fieldOp w = w := by
  apply BitVec.eq_of_getElem_eq; intro i hi
  simp only [fieldDly, fieldA, fieldZ, fieldOp, BitVec.getElem_append, BitVec.getElem_extractLsb']
  split
  · simp [BitVec.getLsbD_eq_getElem, hi]
  · split
    · rw [show 3 + (i - 3) = i by omega, BitVec.getLsbD_eq_getElem]
    · split
      · rw [show 8 + (i - 3 - 5) = i by omega, BitVec.getLsbD_eq_getElem]
      · rw [show 16 + (i - 3 - 5 - 8) = i by omega, BitVec.getLsbD_eq_getElem]

/-- The two parts of a concatenation determine it. -/
theorem append_injective {m n : Nat} {x x' : BitVec m} {y y' : BitVec n} (h : x ++ y = x' ++ y') :
    x = x' ∧ y = y' := by
  constructor
  · apply BitVec.eq_of_getLsbD_eq; intro i hi
    have := congrArg (fun v => v.getLsbD (n + i)) h
    simpa [BitVec.getLsbD_append] using this
  · apply BitVec.eq_of_getLsbD_eq; intro i hi
    have := congrArg (fun v => v.getLsbD i) h
    simpa [BitVec.getLsbD_append, hi] using this

/-- Masking a word masks its fields. -/
theorem and_eq_packed (w : Word) (md d : Millis) (ma a : Byte) (mz z : BitVec 5) (mo o : BitVec 3) :
    w &&& (md ++ ma ++ mz ++ mo : BitVec (16 + 8 + 5 + 3)) = (d ++ a ++ z ++ o : BitVec (16 + 8 + 5 + 3)) ↔
      fieldDly w &&& md = d ∧ fieldA w &&& ma = a ∧ fieldZ w &&& mz = z ∧ fieldOp w &&& mo = o := by
  rw [show w &&& (md ++ ma ++ mz ++ mo : BitVec (16 + 8 + 5 + 3)) =
      (fieldDly w &&& md) ++ (fieldA w &&& ma) ++ (fieldZ w &&& mz) ++ (fieldOp w &&& mo) by
    conv_lhs => rw [← packWord_fields w]
    rw [BitVec.and_append, BitVec.and_append, BitVec.and_append]]
  constructor
  · intro h
    obtain ⟨h, h4⟩ := append_injective h
    obtain ⟨h, h3⟩ := append_injective h
    obtain ⟨h1, h2⟩ := append_injective h
    exact ⟨h1, h2, h3, h4⟩
  · rintro ⟨rfl, rfl, rfl, rfl⟩; rfl

/-- The RDREG row of 30_encoding.md R83, by fields. -/
theorem low_byte_match (w : Word) :
    w &&& 0x000000FF#32 = 0x00000001#32 ↔ fieldZ w = 0#5 ∧ fieldOp w = 1#3 := by
  have h := and_eq_packed w 0x0000#16 0#16 0x00#8 0#8 (BitVec.allOnes 5) 0#5 (BitVec.allOnes 3) 1#3
  rw [show (0#16 ++ 0#8 ++ BitVec.allOnes 5 ++ BitVec.allOnes 3 : BitVec (16 + 8 + 5 + 3)) =
      0x000000FF#32 from rfl,
    show (0#16 ++ 0#8 ++ 0#5 ++ 1#3 : BitVec (16 + 8 + 5 + 3)) = 0x00000001#32 from rfl] at h
  rw [h]
  simp only [BitVec.and_allOnes, BitVec.and_zero, true_and]

/-- The SETADDR row of 30_encoding.md R83, by fields. -/
theorem all_but_a_match (w : Word) : w &&& 0xFFFF00FF#32 = 0x00000005#32 ↔
    fieldDly w = 0#16 ∧ fieldZ w = 0#5 ∧ fieldOp w = 5#3 := by
  have h := and_eq_packed w (BitVec.allOnes 16) 0#16 0x00#8 0#8 (BitVec.allOnes 5) 0#5 (BitVec.allOnes 3) 5#3
  rw [show (BitVec.allOnes 16 ++ 0#8 ++ BitVec.allOnes 5 ++ BitVec.allOnes 3 : BitVec (16 + 8 + 5 + 3)) =
      0xFFFF00FF#32 from rfl,
    show (0#16 ++ 0#8 ++ 0#5 ++ 5#3 : BitVec (16 + 8 + 5 + 3)) = 0x00000005#32 from rfl] at h
  rw [h]
  simp only [BitVec.and_allOnes, BitVec.and_zero, true_and]

/-- The rows of 30_encoding.md R83 that fix every bit, by fields. -/
theorem whole_match (w : Word) (o : BitVec 3) : w &&& 0xFFFFFFFF#32 = packWord 0#16 0#8 o ↔
    fieldDly w = 0#16 ∧ fieldA w = 0#8 ∧ fieldZ w = 0#5 ∧ fieldOp w = o := by
  have h := and_eq_packed w (BitVec.allOnes 16) 0#16 (BitVec.allOnes 8) 0#8 (BitVec.allOnes 5) 0#5 (BitVec.allOnes 3) o
  rw [show (BitVec.allOnes 16 ++ BitVec.allOnes 8 ++ BitVec.allOnes 5 ++ BitVec.allOnes 3 :
      BitVec (16 + 8 + 5 + 3)) = 0xFFFFFFFF#32 from rfl] at h
  rw [packWord, h]
  simp only [BitVec.and_allOnes]
/-- What the decoder can answer with a command, by the fields of the word. -/
theorem decode_ok_cases (w : Word) (i : Instr) : decode w = .ok i ↔
    fieldZ w = 0#5 ∧
      ((fieldOp w = 1#3 ∧ i = .rdreg (fieldA w) (fieldDly w)) ∨
        (fieldOp w = 2#3 ∧ fieldA w = 0#8 ∧ fieldDly w = 0#16 ∧ i = .getver) ∨
        (fieldOp w = 3#3 ∧ fieldA w = 0#8 ∧ fieldDly w = 0#16 ∧ i = .getres) ∨
        (fieldOp w = 4#3 ∧ fieldA w = 0#8 ∧ fieldDly w = 0#16 ∧ i = .gettvoc) ∨
        (fieldOp w = 5#3 ∧ fieldDly w = 0#16 ∧ i = .setaddr (fieldA w))) := by
  unfold decode decodeBare decodeSetaddr
  by_cases hz : fieldZ w = 0#5 <;> simp only [hz, ne_eq, not_true_eq_false, not_false_eq_true, if_true, if_false,
    true_and, false_and, reduceCtorEq]
  generalize fieldOp w = o
  rcases (show o = 0#3 ∨ o = 1#3 ∨ o = 2#3 ∨ o = 3#3 ∨ o = 4#3 ∨ o = 5#3 ∨ o = 6#3 ∨ o = 7#3 by
    revert o; decide) with rfl | rfl | rfl | rfl | rfl | rfl | rfl | rfl <;>
    by_cases ha : fieldA w = 0#8 <;> by_cases hd : fieldDly w = 0#16 <;> simp [ha, hd, eq_comm]

end Sys2Proof
end

