-- ==== Sys2Proof/Laws/State.lean ====
section
/-! SUPPORT. What each update of the state does to each field: one lemma per field, true by rfl, so that no proof
unfolds a record update. -/

namespace Sys2Proof.Machine

section

variable (e : ErrKind) (v : Word) (s : State)

@[simp] theorem State.report_addr : (s.report e v).addr = s.addr := rfl
@[simp] theorem State.report_value : (s.report e v).value = v := rfl
@[simp] theorem State.report_done : (s.report e v).done = true := rfl
@[simp] theorem State.report_err : (s.report e v).err = e.code := rfl
@[simp] theorem State.report_phase : (s.report e v).phase = s.phase := rfl
@[simp] theorem State.report_pend : (s.report e v).pend = s.pend := rfl
@[simp] theorem State.report_op : (s.report e v).op = s.op := rfl
@[simp] theorem State.report_reg : (s.report e v).reg = s.reg := rfl
@[simp] theorem State.report_dly : (s.report e v).dly = s.dly := rfl
@[simp] theorem State.report_newa : (s.report e v).newa = s.newa := rfl
@[simp] theorem State.report_tx : (s.report e v).tx = s.tx := rfl
@[simp] theorem State.report_txlen : (s.report e v).txlen = s.txlen := rfl
@[simp] theorem State.report_rx : (s.report e v).rx = s.rx := rfl
@[simp] theorem State.report_crc : (s.report e v).crc = s.crc := rfl
@[simp] theorem State.report_hist : (s.report e v).hist = s.hist := rfl
@[simp] theorem State.report_port : (s.report e v).port = s.port := rfl
@[simp] theorem State.report_env : (s.report e v).env = s.env := rfl

end

section

variable (s : State)

@[simp] theorem State.cleared_addr : s.cleared.addr = s.addr := rfl
@[simp] theorem State.cleared_value : s.cleared.value = s.value := rfl
@[simp] theorem State.cleared_done : s.cleared.done = s.done := rfl
@[simp] theorem State.cleared_err : s.cleared.err = s.err := rfl
@[simp] theorem State.cleared_phase : s.cleared.phase = 0#3 := rfl
@[simp] theorem State.cleared_pend : s.cleared.pend = false := rfl
@[simp] theorem State.cleared_op : s.cleared.op = 0#3 := rfl
@[simp] theorem State.cleared_reg : s.cleared.reg = 0#8 := rfl
@[simp] theorem State.cleared_dly : s.cleared.dly = 0#16 := rfl
@[simp] theorem State.cleared_newa : s.cleared.newa = 0#8 := rfl
@[simp] theorem State.cleared_tx : s.cleared.tx = txZero := rfl
@[simp] theorem State.cleared_txlen : s.cleared.txlen = 0#3 := rfl
@[simp] theorem State.cleared_rx : s.cleared.rx = rxZero := rfl
@[simp] theorem State.cleared_crc : s.cleared.crc = 0#8 := rfl
@[simp] theorem State.cleared_hist : s.cleared.hist = s.hist := rfl
@[simp] theorem State.cleared_port : s.cleared.port = s.port := rfl
@[simp] theorem State.cleared_env : s.cleared.env = s.env := rfl

end

section

variable (e : ErrKind) (v : Word) (s : State)

@[simp] theorem complete_addr : (complete e v s).addr = s.addr := rfl
@[simp] theorem complete_value : (complete e v s).value = v := rfl
@[simp] theorem complete_done : (complete e v s).done = true := rfl
@[simp] theorem complete_err : (complete e v s).err = e.code := rfl
@[simp] theorem complete_phase : (complete e v s).phase = 0#3 := rfl
@[simp] theorem complete_pend : (complete e v s).pend = false := rfl
@[simp] theorem complete_op : (complete e v s).op = 0#3 := rfl
@[simp] theorem complete_reg : (complete e v s).reg = 0#8 := rfl
@[simp] theorem complete_dly : (complete e v s).dly = 0#16 := rfl
@[simp] theorem complete_newa : (complete e v s).newa = 0#8 := rfl
@[simp] theorem complete_tx : (complete e v s).tx = txZero := rfl
@[simp] theorem complete_txlen : (complete e v s).txlen = 0#3 := rfl
@[simp] theorem complete_rx : (complete e v s).rx = rxZero := rfl
@[simp] theorem complete_crc : (complete e v s).crc = 0#8 := rfl
@[simp] theorem complete_hist : (complete e v s).hist = s.hist := rfl
@[simp] theorem complete_port : (complete e v s).port = s.port := rfl
@[simp] theorem complete_env : (complete e v s).env = s.env := rfl

end

section

variable (e : ErrKind) (s : State)

@[simp] theorem raiseError_addr : (raiseError e s).addr = s.addr := rfl
@[simp] theorem raiseError_value : (raiseError e s).value = 0xFFFFFFFF#32 := rfl
@[simp] theorem raiseError_done : (raiseError e s).done = true := rfl
@[simp] theorem raiseError_err : (raiseError e s).err = e.code := rfl
@[simp] theorem raiseError_phase : (raiseError e s).phase = 0#3 := rfl
@[simp] theorem raiseError_pend : (raiseError e s).pend = false := rfl
@[simp] theorem raiseError_op : (raiseError e s).op = 0#3 := rfl
@[simp] theorem raiseError_reg : (raiseError e s).reg = 0#8 := rfl
@[simp] theorem raiseError_dly : (raiseError e s).dly = 0#16 := rfl
@[simp] theorem raiseError_newa : (raiseError e s).newa = 0#8 := rfl
@[simp] theorem raiseError_tx : (raiseError e s).tx = txZero := rfl
@[simp] theorem raiseError_txlen : (raiseError e s).txlen = 0#3 := rfl
@[simp] theorem raiseError_rx : (raiseError e s).rx = rxZero := rfl
@[simp] theorem raiseError_crc : (raiseError e s).crc = 0#8 := rfl
@[simp] theorem raiseError_hist : (raiseError e s).hist = s.hist := rfl
@[simp] theorem raiseError_port : (raiseError e s).port = s.port := rfl
@[simp] theorem raiseError_env : (raiseError e s).env = s.env := rfl

end

section

variable (l : Latched) (s : State)

@[simp] theorem accept_addr : (accept l s).addr = s.addr := rfl
@[simp] theorem accept_value : (accept l s).value = 0xFFFFFFFF#32 := rfl
@[simp] theorem accept_done : (accept l s).done = false := rfl
@[simp] theorem accept_err : (accept l s).err = 0#2 := rfl
@[simp] theorem accept_phase : (accept l s).phase = 1#3 := rfl
@[simp] theorem accept_pend : (accept l s).pend = false := rfl
@[simp] theorem accept_op : (accept l s).op = l.op := rfl
@[simp] theorem accept_reg : (accept l s).reg = l.reg := rfl
@[simp] theorem accept_dly : (accept l s).dly = l.dly := rfl
@[simp] theorem accept_newa : (accept l s).newa = l.newa := rfl
@[simp] theorem accept_tx : (accept l s).tx = l.tx := rfl
@[simp] theorem accept_txlen : (accept l s).txlen = l.txlen := rfl
@[simp] theorem accept_rx : (accept l s).rx = s.rx := rfl
@[simp] theorem accept_crc : (accept l s).crc = s.crc := rfl
@[simp] theorem accept_hist : (accept l s).hist = s.hist := rfl
@[simp] theorem accept_port : (accept l s).port = s.port := rfl
@[simp] theorem accept_env : (accept l s).env = s.env := rfl

end

section

variable (s : State)

@[simp] theorem reject_addr : (reject s).addr = s.addr := rfl
@[simp] theorem reject_value : (reject s).value = 0xFFFFFFFF#32 := rfl
@[simp] theorem reject_done : (reject s).done = true := rfl
@[simp] theorem reject_err : (reject s).err = 3#2 := rfl
@[simp] theorem reject_phase : (reject s).phase = s.phase := rfl
@[simp] theorem reject_pend : (reject s).pend = s.pend := rfl
@[simp] theorem reject_op : (reject s).op = s.op := rfl
@[simp] theorem reject_reg : (reject s).reg = s.reg := rfl
@[simp] theorem reject_dly : (reject s).dly = s.dly := rfl
@[simp] theorem reject_newa : (reject s).newa = s.newa := rfl
@[simp] theorem reject_tx : (reject s).tx = s.tx := rfl
@[simp] theorem reject_txlen : (reject s).txlen = s.txlen := rfl
@[simp] theorem reject_rx : (reject s).rx = s.rx := rfl
@[simp] theorem reject_crc : (reject s).crc = s.crc := rfl
@[simp] theorem reject_hist : (reject s).hist = s.hist := rfl
@[simp] theorem reject_port : (reject s).port = s.port := rfl
@[simp] theorem reject_env : (reject s).env = s.env := rfl

end

section

variable (e : BusEvent) (s : State)

@[simp] theorem issue_addr : (issue e s).addr = s.addr := rfl
@[simp] theorem issue_value : (issue e s).value = s.value := rfl
@[simp] theorem issue_done : (issue e s).done = s.done := rfl
@[simp] theorem issue_err : (issue e s).err = s.err := rfl
@[simp] theorem issue_phase : (issue e s).phase = s.phase := rfl
@[simp] theorem issue_pend : (issue e s).pend = true := rfl
@[simp] theorem issue_op : (issue e s).op = s.op := rfl
@[simp] theorem issue_reg : (issue e s).reg = s.reg := rfl
@[simp] theorem issue_dly : (issue e s).dly = s.dly := rfl
@[simp] theorem issue_newa : (issue e s).newa = s.newa := rfl
@[simp] theorem issue_tx : (issue e s).tx = s.tx := rfl
@[simp] theorem issue_txlen : (issue e s).txlen = s.txlen := rfl
@[simp] theorem issue_rx : (issue e s).rx = s.rx := rfl
@[simp] theorem issue_crc : (issue e s).crc = s.crc := rfl
@[simp] theorem issue_hist : (issue e s).hist = s.hist ++ [e] := rfl
@[simp] theorem issue_port : (issue e s).port = s.port := rfl
@[simp] theorem issue_env : (issue e s).env = s.env := rfl

end

section

variable (s : State)

@[simp] theorem delayResponse_addr : (delayResponse s).addr = s.addr := rfl
@[simp] theorem delayResponse_value : (delayResponse s).value = s.value := rfl
@[simp] theorem delayResponse_done : (delayResponse s).done = s.done := rfl
@[simp] theorem delayResponse_err : (delayResponse s).err = s.err := rfl
@[simp] theorem delayResponse_phase : (delayResponse s).phase = 3#3 := rfl
@[simp] theorem delayResponse_pend : (delayResponse s).pend = false := rfl
@[simp] theorem delayResponse_op : (delayResponse s).op = s.op := rfl
@[simp] theorem delayResponse_reg : (delayResponse s).reg = s.reg := rfl
@[simp] theorem delayResponse_dly : (delayResponse s).dly = s.dly := rfl
@[simp] theorem delayResponse_newa : (delayResponse s).newa = s.newa := rfl
@[simp] theorem delayResponse_tx : (delayResponse s).tx = s.tx := rfl
@[simp] theorem delayResponse_txlen : (delayResponse s).txlen = s.txlen := rfl
@[simp] theorem delayResponse_rx : (delayResponse s).rx = s.rx := rfl
@[simp] theorem delayResponse_crc : (delayResponse s).crc = s.crc := rfl
@[simp] theorem delayResponse_hist : (delayResponse s).hist = s.hist := rfl
@[simp] theorem delayResponse_port : (delayResponse s).port = s.port := rfl
@[simp] theorem delayResponse_env : (delayResponse s).env = s.env := rfl

end

section

variable (s : State)

@[simp] theorem State.tick_addr : s.tick.addr = s.addr := rfl
@[simp] theorem State.tick_value : s.tick.value = s.value := rfl
@[simp] theorem State.tick_done : s.tick.done = s.done := rfl
@[simp] theorem State.tick_err : s.tick.err = s.err := rfl
@[simp] theorem State.tick_phase : s.tick.phase = s.phase := rfl
@[simp] theorem State.tick_pend : s.tick.pend = s.pend := rfl
@[simp] theorem State.tick_op : s.tick.op = s.op := rfl
@[simp] theorem State.tick_reg : s.tick.reg = s.reg := rfl
@[simp] theorem State.tick_dly : s.tick.dly = s.dly := rfl
@[simp] theorem State.tick_newa : s.tick.newa = s.newa := rfl
@[simp] theorem State.tick_tx : s.tick.tx = s.tx := rfl
@[simp] theorem State.tick_txlen : s.tick.txlen = s.txlen := rfl
@[simp] theorem State.tick_rx : s.tick.rx = s.rx := rfl
@[simp] theorem State.tick_crc : s.tick.crc = s.crc := rfl
@[simp] theorem State.tick_hist : s.tick.hist = s.hist := rfl
@[simp] theorem State.tick_port : s.tick.port = s.env.headD Inputs.silent := rfl
@[simp] theorem State.tick_env : s.tick.env = s.env.tail := rfl

end

section

variable (w : Word) (s : State)

@[simp] theorem State.offer_addr : (s.offer w).addr = s.addr := rfl
@[simp] theorem State.offer_value : (s.offer w).value = s.value := rfl
@[simp] theorem State.offer_done : (s.offer w).done = s.done := rfl
@[simp] theorem State.offer_err : (s.offer w).err = s.err := rfl
@[simp] theorem State.offer_phase : (s.offer w).phase = s.phase := rfl
@[simp] theorem State.offer_pend : (s.offer w).pend = s.pend := rfl
@[simp] theorem State.offer_op : (s.offer w).op = s.op := rfl
@[simp] theorem State.offer_reg : (s.offer w).reg = s.reg := rfl
@[simp] theorem State.offer_dly : (s.offer w).dly = s.dly := rfl
@[simp] theorem State.offer_newa : (s.offer w).newa = s.newa := rfl
@[simp] theorem State.offer_tx : (s.offer w).tx = s.tx := rfl
@[simp] theorem State.offer_txlen : (s.offer w).txlen = s.txlen := rfl
@[simp] theorem State.offer_rx : (s.offer w).rx = s.rx := rfl
@[simp] theorem State.offer_crc : (s.offer w).crc = s.crc := rfl
@[simp] theorem State.offer_hist : (s.offer w).hist = s.hist := rfl
@[simp] theorem State.offer_port_cmdValid : (s.offer w).port.cmdValid = true := rfl
@[simp] theorem State.offer_port_cmd : (s.offer w).port.cmd = w := rfl
@[simp] theorem State.offer_env : (s.offer w).env = s.env := rfl

end

end Sys2Proof.Machine
end

