-- ==== Sys2Proof/Laws/Ops.lean ====
section
/-! SUPPORT. What each shared operation can do, said once: a proof cites these and does not unfold the operation. -/

namespace Sys2Proof.Machine

/-- A command's meaning is the step of the command that its operands latch. -/
theorem exec_eq (i : Instr) (s : State) : exec i s = .next (command (latch i) s) := by
  cases i <;> rfl

/-- Different commands latch different operands. -/
theorem latch_injective {i j : Instr} (h : latch i = latch j) : i = j := by
  cases i <;> cases j <;> simp_all [latch, Op.rdreg, Op.getver, Op.getres, Op.gettvoc, Op.setaddr]

/-- Only SETADDR latches its opcode. -/
theorem latch_op_setaddr (i : Instr) : (latch i).op = Op.setaddr ↔ ∃ n, i = .setaddr n := by
  cases i <;> simp [latch]

/-- A command is a read command exactly when it latches another opcode than SETADDR's. -/
theorem isRead_iff (i : Instr) : i.isRead = true ↔ (latch i).op ≠ Op.setaddr := by
  cases i <;> simp [latch, Instr.isRead]

@[simp] theorem latched_op (s : State) : s.latched.op = s.op := rfl
@[simp] theorem latched_reg (s : State) : s.latched.reg = s.reg := rfl
@[simp] theorem latched_dly (s : State) : s.latched.dly = s.dly := rfl
@[simp] theorem latched_newa (s : State) : s.latched.newa = s.newa := rfl

/-- The command found in progress is the one that the registers hold. -/
theorem latched_of_inProgress {s : State} {i : Instr} (h : s.inProgress = some i) : s.latched = latch i := by
  unfold State.inProgress at h
  split at h
  · cases h; assumption
  · split at h
    · cases h; assumption
    · split at h
      · cases h; assumption
      · split at h
        · cases h; assumption
        · split at h
          · cases h; assumption
          · cases h

/-- A command whose operands the registers hold is found in progress. -/
theorem inProgress_of_latched {s : State} {i : Instr} (h : s.latched = latch i) : s.inProgress = some i := by
  have hr : s.reg = (latch i).reg := by rw [← h]; rfl
  have hd : s.dly = (latch i).dly := by rw [← h]; rfl
  have hn : s.newa = (latch i).newa := by rw [← h]; rfl
  unfold State.inProgress
  rw [h, hr, hd, hn]
  cases i <;> simp [latch, Op.rdreg, Op.getver, Op.getres, Op.gettvoc, Op.setaddr]

/-- What the transport answers is what its ports show. -/
theorem answer_of_tDone {p : Inputs} (h : p.tDone = true) : p.answer = some ⟨p.tOk, replyBytes p.tRdata⟩ := by
  simp [Inputs.answer, h]

/-- A transport that is not done answers nothing. -/
theorem answer_of_not_tDone {p : Inputs} (h : p.tDone = false) : p.answer = none := by
  simp [Inputs.answer, h]

/-- Everything the WRITE phase can do. -/
theorem writePhase_cases (s : State) :
    (s.pend = false ∧ writePhase s = issue (.write s.addr s.frame) s) ∨
    (s.pend = true ∧ s.port.tDone = false ∧ writePhase s = s) ∨
    (s.pend = true ∧ s.port.tDone = true ∧ s.port.tOk = false ∧ writePhase s = raiseError .transport s) ∨
    (s.pend = true ∧ s.port.tDone = true ∧ s.port.tOk = true ∧ s.op = Op.setaddr ∧
      writePhase s = complete .none Config.sentinel { s with addr := s.newa }) ∨
    (s.pend = true ∧ s.port.tDone = true ∧ s.port.tOk = true ∧ s.op ≠ Op.setaddr ∧
      writePhase s = { s with pend := false, phase := Phase.delay }) := by
  cases hp : s.pend <;> cases hd : s.port.tDone <;> cases ho : s.port.tOk <;> by_cases hop : s.op = Op.setaddr <;>
    simp [writePhase, writeIssue, writeResponse, Inputs.answer, hp, hd, ho, hop]

/-- Everything the DELAY phase can do. -/
theorem delayPhase_cases (s : State) :
    (s.pend = false ∧ delayPhase s = issue (.delay s.dly) s) ∨
    (s.pend = true ∧ s.port.dDone = false ∧ delayPhase s = s) ∨
    (s.pend = true ∧ s.port.dDone = true ∧ delayPhase s = delayResponse s) := by
  cases hp : s.pend <;> cases hd : s.port.dDone <;> simp [delayPhase, delayIssue, hp, hd]

/-- Everything the READ phase can do. -/
theorem readPhase_cases (s : State) :
    (s.pend = false ∧ readPhase s = issue (.read s.addr Config.replyLength) s) ∨
    (s.pend = true ∧ s.port.tDone = false ∧ readPhase s = s) ∨
    (s.pend = true ∧ s.port.tDone = true ∧ s.port.tOk = false ∧ readPhase s = raiseError .transport s) ∨
    (s.pend = true ∧ s.port.tDone = true ∧ s.port.tOk = true ∧
      readPhase s = { s with rx := replyBytes s.port.tRdata, pend := false, phase := Phase.check }) := by
  cases hp : s.pend <;> cases hd : s.port.tDone <;> cases ho : s.port.tOk <;>
    simp [readPhase, readIssue, readResponse, Inputs.answer, hp, hd, ho]

/-- The CRC register does not survive a completion. -/
theorem complete_crc_irrelevant (e : ErrKind) (v : Word) (s : State) (c : Byte) :
    complete e v { s with crc := c } = complete e v s := rfl

/-- Everything the CHECK step can do. -/
theorem check_cases (s : State) :
    (frameOk s.rx = true ∧ check s = complete .none (decodeReading s.op (rawValue s.rx)) s) ∨
    (frameOk s.rx = false ∧ check s = raiseError .integrity s) := by
  cases h : frameOk s.rx
  · exact .inr ⟨rfl, by rw [check, h]; rfl⟩
  · exact .inl ⟨rfl, by rw [check, h]; rfl⟩

/-- Everything the sequencer can do: one phase each, and nothing in the phases that no rule writes. -/
theorem advance_cases (s : State) :
    (s.phase = Phase.write ∧ advance s = writePhase s) ∨
    (s.phase = Phase.delay ∧ advance s = delayPhase s) ∨
    (s.phase = Phase.read ∧ advance s = readPhase s) ∨
    (s.phase = Phase.check ∧ advance s = check s) ∨
    ((s.phase = Phase.idle ∨ Phase.check < s.phase) ∧ advance s = s) := by
  unfold advance
  generalize s.phase = p
  rcases (show p = 0#3 ∨ p = 1#3 ∨ p = 2#3 ∨ p = 3#3 ∨ p = 4#3 ∨ p = 5#3 ∨ p = 6#3 ∨ p = 7#3 by
    revert p; decide) with rfl | rfl | rfl | rfl | rfl | rfl | rfl | rfl <;> simp

/-- Everything the sequencer can do, step by step, with the guard of each step (41_transaction.md R120). -/
theorem advance_outcomes (s : State) :
    (s.phase = 1#3 ∧ s.pend = false ∧ advance s = issue (.write s.addr s.frame) s) ∨
    (s.phase = 1#3 ∧ s.pend = true ∧ s.port.tDone = true ∧ s.port.tOk = false ∧
      advance s = raiseError .transport s) ∨
    (s.phase = 1#3 ∧ s.pend = true ∧ s.port.tDone = true ∧ s.port.tOk = true ∧ s.op = 5#3 ∧
      advance s = complete .none 0xFFFFFFFF#32 { s with addr := s.newa }) ∨
    (s.phase = 1#3 ∧ s.pend = true ∧ s.port.tDone = true ∧ s.port.tOk = true ∧ s.op ≠ 5#3 ∧
      advance s = { s with pend := false, phase := 2#3 }) ∨
    (s.phase = 2#3 ∧ s.pend = false ∧ advance s = issue (.delay s.dly) s) ∨
    (s.phase = 2#3 ∧ s.pend = true ∧ s.port.dDone = true ∧ advance s = { s with pend := false, phase := 3#3 }) ∨
    (s.phase = 3#3 ∧ s.pend = false ∧ advance s = issue (.read s.addr 5) s) ∨
    (s.phase = 3#3 ∧ s.pend = true ∧ s.port.tDone = true ∧ s.port.tOk = false ∧
      advance s = raiseError .transport s) ∨
    (s.phase = 3#3 ∧ s.pend = true ∧ s.port.tDone = true ∧ s.port.tOk = true ∧
      advance s = { s with rx := replyBytes s.port.tRdata, pend := false, phase := 4#3 }) ∨
    (s.phase = 4#3 ∧ frameOk s.rx = true ∧
      advance s = complete .none (decodeReading s.op (rawValue s.rx)) s) ∨
    (s.phase = 4#3 ∧ frameOk s.rx = false ∧ advance s = raiseError .integrity s) ∨
    (s.phase ≠ 4#3 ∧ (s.phase = 1#3 ∨ s.phase = 2#3 ∨ s.phase = 3#3 → s.pend = true) ∧
      (s.phase = 1#3 ∨ s.phase = 3#3 → s.port.tDone = false) ∧ (s.phase = 2#3 → s.port.dDone = false) ∧
      advance s = s) := by
  rcases advance_cases s with ⟨h, e⟩ | ⟨h, e⟩ | ⟨h, e⟩ | ⟨h, e⟩ | ⟨h, e⟩
  · rw [e]; rcases writePhase_cases s with g | g | g | g | g <;> simp [h, g]
  · rw [e]; rcases delayPhase_cases s with g | g | g <;> simp [h, g, delayResponse]
  · rw [e]; rcases readPhase_cases s with g | g | g | g <;> simp [h, g]
  · rw [e]; rcases check_cases s with g | g <;> simp [h, g]
  · have : s.phase ≠ 1#3 ∧ s.phase ≠ 2#3 ∧ s.phase ≠ 3#3 ∧ s.phase ≠ 4#3 := by
      revert h; generalize s.phase = p; revert p; decide
    simp [e, this]

/-- Everything a command can do: accepted when idle, one step further when in progress, else held. -/
theorem command_cases (l : Latched) (s : State) :
    (s.phase = Phase.idle ∧ command l s = accept l s) ∨
    (s.phase ≠ Phase.idle ∧ s.latched = l ∧ command l s = advance s) ∨
    (s.phase ≠ Phase.idle ∧ s.latched ≠ l ∧ command l s = s) := by
  unfold command
  by_cases h : s.phase = Phase.idle <;> by_cases g : s.latched = l <;> simp [h, g]

/-- An idle engine accepts the command. -/
theorem exec_idle {s : State} (i : Instr) (h : s.phase = Phase.idle) : exec i s = .next (accept (latch i) s) := by
  rw [exec_eq]
  rcases command_cases (latch i) s with ⟨_, e⟩ | ⟨k, _⟩ | ⟨k, _⟩
  · rw [e]
  · exact absurd h k
  · exact absurd h k

/-- The command in progress takes the step that the sequencer enables. -/
theorem exec_busy {s : State} {i : Instr} (h : s.phase ≠ Phase.idle) (g : s.latched = latch i) :
    exec i s = .next (advance s) := by
  rw [exec_eq]
  rcases command_cases (latch i) s with ⟨k, _⟩ | ⟨_, _, e⟩ | ⟨_, k, _⟩
  · exact absurd k h
  · rw [e]
  · exact absurd g k

/-- The sequencer neither reads the command port nor touches a port. -/
theorem advance_ports (s : State) : (advance s).port = s.port ∧ (advance s).env = s.env := by
  rcases advance_cases s with ⟨_, h⟩ | ⟨_, h⟩ | ⟨_, h⟩ | ⟨_, h⟩ | ⟨_, h⟩ <;> rw [h]
  · rcases writePhase_cases s with ⟨_, g⟩ | ⟨_, _, g⟩ | ⟨_, _, _, g⟩ | ⟨_, _, _, _, g⟩ | ⟨_, _, _, _, g⟩ <;> simp [g]
  · rcases delayPhase_cases s with ⟨_, g⟩ | ⟨_, _, g⟩ | ⟨_, _, g⟩ <;> simp [g]
  · rcases readPhase_cases s with ⟨_, g⟩ | ⟨_, _, g⟩ | ⟨_, _, _, g⟩ | ⟨_, _, _, g⟩ <;> simp [g]
  · rcases check_cases s with ⟨_, g⟩ | ⟨_, g⟩ <;> simp [g]
  · exact ⟨rfl, rfl⟩

end Sys2Proof.Machine
end

