-- ==== Sys2Proof/Laws/PerInstr.lean ====
section
/-! SUPPORT. Statements about every command, made command by command. -/

namespace Sys2Proof.Laws

/-- The word of the command has a zero Z field and matches a row of the mask and match table (30_encoding.md R83). -/
def EncodesLegally.Statement (i : Instr) : Prop := fieldZ (encode i) = 0#5 ∧ legalWord (encode i) = true

/-- A packed word matches the RDREG row when its OP is 1. -/
theorem legalWord_rdreg (dly : Millis) (a : Byte) : legalWord (packWord dly a 1#3) = true := by
  have h : packWord dly a 1#3 &&& 0x000000FF#32 = 0x00000001#32 := (low_byte_match _).2 (by simp)
  simp [legalWord, commandTable, CommandRow.accepts, h]

/-- A packed word matches the SETADDR row when its OP is 5 and its DLY is zero. -/
theorem legalWord_setaddr (a : Byte) : legalWord (packWord 0#16 a 5#3) = true := by
  have h : packWord 0#16 a 5#3 &&& 0xFFFF00FF#32 = 0x00000005#32 := (all_but_a_match _).2 (by simp)
  simp [legalWord, commandTable, CommandRow.accepts, h]

theorem EncodesLegally.rdreg (reg : Byte) (dly : Millis) : EncodesLegally.Statement (.rdreg reg dly) :=
  ⟨fieldZ_packWord _ _ _, legalWord_rdreg dly reg⟩

theorem EncodesLegally.getver : EncodesLegally.Statement .getver := ⟨by decide, by decide⟩

theorem EncodesLegally.getres : EncodesLegally.Statement .getres := ⟨by decide, by decide⟩

theorem EncodesLegally.gettvoc : EncodesLegally.Statement .gettvoc := ⟨by decide, by decide⟩

theorem EncodesLegally.setaddr (n : Byte) : EncodesLegally.Statement (.setaddr n) :=
  ⟨fieldZ_packWord _ _ _, legalWord_setaddr n⟩

end Sys2Proof.Laws
end

