-- ==== Sys2Proof/Laws/Step.lean ====
section
/-! SUPPORT. Everything a step of the machine can do, and how a run of several steps unfolds. -/

namespace Sys2Proof.Machine

/-- A busy engine takes the step that its sequencer enables, whichever command is in progress. -/
theorem step_busy {s : State} (h : s.phase ≠ Phase.idle) : step s = .next (advance s).tick := by
  unfold step State.activity
  rw [if_neg h]
  cases g : s.inProgress with
  | none => rfl
  | some i =>
    simp only [exec_eq, after]
    rcases command_cases (latch i) s with ⟨k, _⟩ | ⟨_, _, e⟩ | ⟨_, k, _⟩
    · exact absurd k h
    · rw [e]
    · exact absurd (latched_of_inProgress g) k

/-- An idle engine accepts the legal word that is offered. -/
theorem step_accept {s : State} {i : Instr} (h : s.phase = Phase.idle) (hv : s.port.cmdValid = true)
    (hd : decode s.port.cmd = .ok i) : step s = .next (accept (latch i) s).tick := by
  unfold step State.activity State.offered
  simp only [if_pos h, if_pos hv, hd, exec_eq, after]
  rcases command_cases (latch i) s with ⟨_, e⟩ | ⟨k, _⟩ | ⟨k, _⟩
  · rw [e]
  · exact absurd h k
  · exact absurd h k

/-- An idle engine rejects the illegal word that is offered. -/
theorem step_reject {s : State} {r : Reject} (h : s.phase = Phase.idle) (hv : s.port.cmdValid = true)
    (hd : decode s.port.cmd = .error r) : step s = .next (reject s).tick := by
  unfold step State.activity State.offered
  simp only [if_pos h, if_pos hv, hd]

/-- An idle engine to which nothing is offered does nothing. -/
theorem step_quiet {s : State} (h : s.phase = Phase.idle) (hv : s.port.cmdValid = false) :
    step s = .next s.tick := by
  unfold step State.activity State.offered
  simp [h, hv]

/-- Everything a step of the machine can do. -/
theorem step_cases {s t : State} (h : step s = .next t) :
    (s.phase ≠ Phase.idle ∧ t = (advance s).tick) ∨
    (s.phase = Phase.idle ∧ s.port.cmdValid = true ∧ ∃ i, decode s.port.cmd = .ok i ∧ t = (accept (latch i) s).tick) ∨
    (s.phase = Phase.idle ∧ s.port.cmdValid = true ∧ (∃ r, decode s.port.cmd = .error r) ∧ t = (reject s).tick) ∨
    (s.phase = Phase.idle ∧ s.port.cmdValid = false ∧ t = s.tick) := by
  by_cases hp : s.phase = Phase.idle
  · cases hv : s.port.cmdValid
    · rw [step_quiet hp hv] at h; cases h; exact .inr (.inr (.inr ⟨hp, rfl, rfl⟩))
    · cases hd : decode s.port.cmd with
      | ok i => rw [step_accept hp hv hd] at h; cases h; exact .inr (.inl ⟨hp, rfl, i, rfl, rfl⟩)
      | error r => rw [step_reject hp hv hd] at h; cases h; exact .inr (.inr (.inl ⟨hp, rfl, ⟨r, rfl⟩, rfl⟩))
  · rw [step_busy hp] at h; cases h; exact .inl ⟨hp, rfl⟩

/-- A run of `k + 1` steps is a step and then a run of `k`. -/
theorem run_succ {s t : State} (k : Nat) (h : step s = .next t) :
    Host.Core.run Sys2Proof.core (k + 1) s = Host.Core.run Sys2Proof.core k t := by
  have h' : Sys2Proof.core.step s = .next t := h
  refine (Host.Core.run.eq_2 Sys2Proof.core s k).trans ?_
  rw [h']

/-- A run of no steps stays. -/
theorem run_zero (s : State) : Host.Core.run Sys2Proof.core 0 s = .next s := rfl

end Sys2Proof.Machine
end

