-- ==== Sys2Proof/Tests/Slice0.lean ====
section
/-! SUPPORT. Tests: the checks on command words, decoding of words written out by hand, the vectors of
95_test_vectors.md for one operation or one step each, and for every statement with hypotheses a concrete state and
operands that meet them (the `witness_` theorems). -/

namespace Sys2Proof.Tests

open Sys2Proof.Machine

/-! ### Command words -/

/-- The rows of the mask and match table fix different values in a bit that both fix. -/
theorem test_commandTable_rows_disjoint : commandTable.Pairwise (fun r q => r.disjoint q = true) := by decide

/-- Every row's pattern lies within its mask. -/
theorem test_commandTable_patterns_masked : ∀ r ∈ commandTable, r.pattern &&& r.mask = r.pattern := by decide

/-- Ill formed: OP 0, 6, 7 (95_test_vectors.md section 2.2). -/
theorem test_legalWord_refuses_reserved_op :
    legalWord 0x00000000#32 = false ∧ legalWord 0x00000006#32 = false ∧ legalWord 0x00000007#32 = false ∧
      legalWord 0xFFFFFFFF#32 = false := by decide

/-- Ill formed: Z nonzero, in each of its bits. -/
theorem test_legalWord_refuses_nonzero_z :
    legalWord 0x00000009#32 = false ∧ legalWord 0x0000000A#32 = false ∧ legalWord 0x00000013#32 = false ∧
      legalWord 0x00000024#32 = false ∧ legalWord 0x00000045#32 = false ∧ legalWord 0x00000081#32 = false := by decide

/-- Ill formed: an operand A where the command takes none. -/
theorem test_legalWord_refuses_nonzero_a :
    legalWord 0x00000102#32 = false ∧ legalWord 0x00008003#32 = false ∧ legalWord 0x00001104#32 = false := by decide

/-- Ill formed: an operand DLY where the command takes none. -/
theorem test_legalWord_refuses_nonzero_dly :
    legalWord 0x00010002#32 = false ∧ legalWord 0x00010003#32 = false ∧ legalWord 0x80000004#32 = false ∧
      legalWord 0x00010005#32 = false := by decide

/-- A well-formed word of each row. -/
theorem test_legalWord_accepts_each_row :
    legalWord 0x001E1101#32 = true ∧ legalWord 0x00000002#32 = true ∧ legalWord 0x00000003#32 = true ∧
      legalWord 0x00000004#32 = true ∧ legalWord 0x00002B05#32 = true := by decide

/-- `RDREG 0x11, 30` bit by bit: DLY, A, Z, OP (30_encoding.md R82). -/
theorem test_decode_rdreg :
    decode 0b0000000000011110_00010001_00000_001#32 = .ok (.rdreg 0x11#8 30#16) := by decide
/-- `RDREG` with its largest operands (95_test_vectors.md section 2.2). -/
theorem test_decode_rdreg_largest : decode 0xFFFFFF01#32 = .ok (.rdreg 0xFF#8 65535#16) := by decide
/-- `GETVER` bit by bit. -/
theorem test_decode_getver : decode 0b0000000000000000_00000000_00000_010#32 = .ok .getver := by decide
/-- `GETRES` bit by bit. -/
theorem test_decode_getres : decode 0b0000000000000000_00000000_00000_011#32 = .ok .getres := by decide
/-- `GETTVOC` bit by bit. -/
theorem test_decode_gettvoc : decode 0b0000000000000000_00000000_00000_100#32 = .ok .gettvoc := by decide
/-- `SETADDR 0x2B` bit by bit. -/
theorem test_decode_setaddr : decode 0b0000000000000000_00101011_00000_101#32 = .ok (.setaddr 0x2B#8) := by decide

/-- The model's names for the reasons of illegal words; Z is looked at first (95_test_vectors.md section 2.2). -/
theorem test_decode_refuses :
    decode 0x00000000#32 = .error .reservedOp ∧ decode 0x00000006#32 = .error .reservedOp ∧
      decode 0x00000007#32 = .error .reservedOp ∧ decode 0x0000000A#32 = .error .nonzeroZ ∧
      decode 0x00000102#32 = .error .nonzeroA ∧ decode 0x00001104#32 = .error .nonzeroA ∧
      decode 0x00010002#32 = .error .nonzeroDly ∧ decode 0x00010005#32 = .error .nonzeroDly ∧
      decode 0xFFFFFFFF#32 = .error .nonzeroZ := by decide

/-- The words of 95_test_vectors.md section 3, from their assembler text (30_encoding.md R93). -/
theorem test_encode :
    encode (.rdreg 0x11#8 30#16) = 0x001E1101#32 ∧ encode (.rdreg 0x00#8 1000#16) = 0x03E80001#32 ∧
      encode .getver = 0x00000002#32 ∧ encode .getres = 0x00000003#32 ∧ encode .gettvoc = 0x00000004#32 ∧
      encode (.setaddr 0x2B#8) = 0x00002B05#32 := by decide

/-- The assembler text of 30_encoding.md R93. -/
theorem test_assembly :
    assembly (.rdreg 0x11#8 30#16) = "RDREG 17, 30" ∧ assembly .getver = "GETVER" ∧
      assembly (.setaddr 0x2B#8) = "SETADDR 43" := by decide +kernel

/-- A row's word as the opcode table numbers its bits; bits above the row's are zero. -/
theorem test_decodeTableWord :
    decodeTableWord 32 0x03E82001 = some (.rdreg 0x20#8 1000#16) ∧ decodeTableWord 16 0x2B05 = some (.setaddr 0x2B#8) ∧
      decodeTableWord 8 0x03 = some .getres ∧ decodeTableWord 32 0x00010003 = none := by decide

/-! ### Values (95_test_vectors.md sections 2.1, 2.4, 2.5) -/

theorem test_crc8Round :
    crc8Round 0x01#8 = 0x02#8 ∧ crc8Round 0x40#8 = 0x80#8 ∧ crc8Round 0x7F#8 = 0xFE#8 ∧ crc8Round 0x80#8 = 0x31#8 ∧
      crc8Round 0x81#8 = 0x33#8 ∧ crc8Round 0xC0#8 = 0xB1#8 ∧ crc8Round 0xFF#8 = 0xCF#8 := by decide

theorem test_crc8_zeros : crc8 [0x00#8, 0x00#8, 0x00#8, 0x00#8] = 0xD7#8 := by decide +kernel

theorem test_crc8_ones : crc8 [0xFF#8, 0xFF#8, 0xFF#8, 0xFF#8] = 0x66#8 := by decide +kernel

theorem test_crc8_check_string :
    crc8 [0x31#8, 0x32#8, 0x33#8, 0x34#8, 0x35#8, 0x36#8, 0x37#8, 0x38#8, 0x39#8] = 0xF7#8 := by decide +kernel

theorem test_frameOk :
    frameOk #v[0x12#8, 0x34#8, 0x56#8, 0x78#8, 0xE0#8] = true ∧
      frameOk #v[0x12#8, 0x34#8, 0x57#8, 0x78#8, 0xE0#8] = false ∧
      frameOk #v[0x00#8, 0x00#8, 0x00#8, 0x00#8, 0x00#8] = false ∧
      frameOk #v[0xFF#8, 0xFF#8, 0xFF#8, 0xFF#8, 0x66#8] = true := by decide +kernel

theorem test_decodeReading :
    decodeReading 2#3 0x0B00004C#32 = 0x0B00004C#32 ∧ decodeReading 3#3 0x028F5C28#32 = 0xFFFFFFA0#32 ∧
      decodeReading 3#3 0x028F5C29#32 = 0x00000004#32 ∧ decodeReading 3#3 0xFFFFFFFF#32 = 0xFFFFFF9C#32 ∧
      decodeReading 4#3 0x12345678#32 = 0x00345678#32 ∧ decodeReading 4#3 0xA50001F4#32 = 0x000001F4#32 ∧
      decodeReading 1#3 0x12345678#32 = 0x12345678#32 := by decide

theorem test_addrFrame :
    (addrFrame 0x55#8).toList = [0x21#8, 0x55#8, 0xAA#8, 0x55#8, 0xAA#8, 0x00#8] ∧
      (addrFrame 0x80#8).toList = [0x21#8, 0x80#8, 0x7F#8, 0x80#8, 0x7F#8, 0x00#8] := by decide

/-! ### States to test on -/

/-- The start state of 95_test_vectors.md section 2.3, with given inputs. -/
def start (p : Inputs) (e : List Inputs) : State := { State.reset with addr := 0x1A#8, port := p, env := e }

/-- The ports with a command word offered. -/
def offering (w : Word) : Inputs := { Inputs.silent with cmdValid := true, cmd := w }

/-- The ports with an answer of the transport. -/
def answering (ok : Bool) (d : BitVec 40) : Inputs := { Inputs.silent with tDone := true, tOk := ok, tRdata := d }

/-- The ports with the delay agent's answer. -/
def rested : Inputs := { Inputs.silent with dDone := true }

/-- Command `i` in progress in phase `ph`. -/
def during (i : Instr) (ph : BitVec 3) (pend : Bool) (p : Inputs) (e : List Inputs) : State :=
  { accept (latch i) (start p e) with phase := ph, pend := pend }

/-- Command `i` in the CHECK phase with received bytes `rx`. -/
def checking (i : Instr) (rx : Vector Byte 5) : State := { during i 4#3 false Inputs.silent [] with rx := rx }

/-- The good frame of 95_test_vectors.md, vector V-RD-1. -/
def goodFrame : Vector Byte 5 := #v[0x12#8, 0x34#8, 0x56#8, 0x78#8, 0xE0#8]

/-- The bad frame of vector V-RD-4. -/
def badFrame : Vector Byte 5 := #v[0x12#8, 0x34#8, 0x56#8, 0x78#8, 0xE1#8]

/-- What section 2 of 95_test_vectors.md lists of an end state: ADDR, VALUE, DONE, ERR, and whether the engine is idle. -/
def shown : Host.Outcome State Fault Refusal → Option (Byte × Word × Bool × BitVec 2 × Bool)
  | .next s => some (s.addr, s.value, s.done, s.err, s.cmdReady)
  | .fault _ => none
  | .refused _ => none

/-- The history after a step. -/
def traced : Host.Outcome State Fault Refusal → List BusEvent
  | .next s => s.hist
  | .fault _ => []
  | .refused _ => []

theorem frameOk_goodFrame : frameOk goodFrame = true := by decide +kernel
theorem frameOk_badFrame : frameOk badFrame = false := by decide +kernel

/-! ### One step (95_test_vectors.md sections 2.2 to 2.6) -/

/-- Acceptance in V-RD-1: an address-free step; no result shows. -/
theorem test_rdreg_accepted :
    shown (step (start (offering 0x001E1101#32) [])) = some (0x1A#8, 0xFFFFFFFF#32, false, 0#2, false) := by decide

/-- The write of V-RD-8: the one byte `0xFF` to ADDR. -/
theorem test_rdreg_write :
    traced (exec (.rdreg 0xFF#8 65535#16) (during (.rdreg 0xFF#8 65535#16) 1#3 false Inputs.silent [])) =
      [.write 0x1A#8 [0xFF#8]] := by decide

/-- The end of V-VER-1. -/
theorem test_getver_check :
    shown (exec .getver (checking .getver #v[0x0B#8, 0x00#8, 0x00#8, 0x4C#8, 0x17#8])) =
      some (0x1A#8, 0x0B00004C#32, true, 0#2, true) := by decide +kernel

/-- The end of V-RES-2: the product wraps, without an error. -/
theorem test_getres_check :
    shown (exec .getres (checking .getres #v[0x02#8, 0x8F#8, 0x5C#8, 0x29#8, 0xE9#8])) =
      some (0x1A#8, 0x00000004#32, true, 0#2, true) := by decide +kernel

/-- The delay of GETRES. -/
theorem test_getres_delay :
    traced (exec .getres (during .getres 2#3 false Inputs.silent [])) = [.delay 1000#16] := by decide

/-- The end of V-TVOC-1: the status byte is dropped. -/
theorem test_gettvoc_check :
    shown (exec .gettvoc (checking .gettvoc goodFrame)) = some (0x1A#8, 0x00345678#32, true, 0#2, true) := by
  decide +kernel

/-- The end of V-TVOC-4: a failed read shows the sentinel, not masked (90_conflicts.md C1). -/
theorem test_gettvoc_read_fails :
    shown (exec .gettvoc (during .gettvoc 3#3 true (answering false 0xE078563412#40) [])) =
      some (0x1A#8, 0xFFFFFFFF#32, true, 1#2, true) := by decide

/-- The end of V-SA-1. -/
theorem test_setaddr_write_succeeds :
    shown (exec (.setaddr 0x2B#8) (during (.setaddr 0x2B#8) 1#3 true (answering true 0#40) [])) =
      some (0x2B#8, 0xFFFFFFFF#32, true, 0#2, true) := by decide

/-- The frame of V-SA-1 goes to the old address. -/
theorem test_setaddr_write :
    traced (exec (.setaddr 0x2B#8) (during (.setaddr 0x2B#8) 1#3 false Inputs.silent [])) =
      [.write 0x1A#8 [0x21#8, 0x2B#8, 0xD4#8, 0x2B#8, 0xD4#8, 0x00#8]] := by decide

/-- The end of V-RD-4: a bad checksum. -/
theorem test_rdreg_bad_frame :
    shown (exec (.rdreg 0x11#8 30#16) (checking (.rdreg 0x11#8 30#16) badFrame)) =
      some (0x1A#8, 0xFFFFFFFF#32, true, 2#2, true) := by decide +kernel

/-- An illegal word is answered at once, and asks nothing of the transport. -/
theorem test_illegal_word :
    shown (step (start (offering 0x00010005#32) [])) = some (0x1A#8, 0xFFFFFFFF#32, true, 3#2, true) ∧
      traced (step (start (offering 0x00010005#32) [])) = [] := by decide

/-- The bytes of a good read land in RX in the order of `t_rdata` (20_memory.md R51). -/
theorem test_replyBytes : replyBytes 0xE078563412#40 = goodFrame := by decide

/-- STATUS after an integrity error: ERR in bits 3:2, DONE in bit 1 (10_state.md R25). -/
theorem test_status : (complete .integrity 0xFFFFFFFF#32 (start Inputs.silent [])).status = 0b1010#32 := by decide

/-- `t_wdata` of SETADDR: the first byte lowest (20_memory.md R51). -/
theorem test_wdata : (during (.setaddr 0x2B#8) 1#3 false Inputs.silent []).wdata = 0x00D42BD42B21#48 := by decide

/-! ### States that meet the invariants -/

/-- The registers of a command in progress keep the invariant in every phase that the command goes through. -/
theorem inv_during (i : Instr) (ph : BitVec 3) (pend : Bool) (p : Inputs) (e : List Inputs)
    (h : ph = 1#3 ∨ (i.isRead = true ∧ (ph = 2#3 ∨ ph = 3#3)) ∨ (i.isRead = true ∧ ph = 4#3 ∧ pend = false)) :
    Inv (during i ph pend p e) where
  phase_legal := by
    show ph ≤ 4#3
    rcases h with rfl | ⟨_, rfl | rfl⟩ | ⟨_, rfl, _⟩ <;> decide
  pend_phase := by
    show pend = true → ph = 1#3 ∨ ph = 2#3 ∨ ph = 3#3
    rcases h with rfl | ⟨_, rfl | rfl⟩ | ⟨_, rfl, rfl⟩ <;> simp
  idle_form := by
    intro (k : ph = 0#3)
    rcases h with rfl | ⟨_, rfl | rfl⟩ | ⟨_, rfl, _⟩ <;> simp at k
  busy_status := fun _ => ⟨rfl, rfl, rfl⟩
  busy_holds := fun _ => ⟨i, rfl, rfl, rfl⟩
  past_write := by
    show ph = 2#3 ∨ ph = 3#3 ∨ ph = 4#3 → (latch i).op ≠ 5#3
    intro k
    have r : i.isRead = true := by
      rcases h with rfl | ⟨r, _⟩ | ⟨r, _⟩
      · simp at k
      · exact r
      · exact r
    exact (isRead_iff i).1 r
  rx_zero := fun _ => rfl
  crc_zero := rfl
  error_value := fun k => absurd rfl k
  not_done := fun _ => ⟨rfl, rfl⟩

/-- The idle engine keeps the invariant. -/
theorem inv_start (p : Inputs) (e : List Inputs) : Inv (start p e) := by
  constructor <;> simp [start, State.reset, State.idleForm]

/-- The history of the idle engine is empty. -/
theorem traceInv_start (p : Inputs) (e : List Inputs) : TraceInv (start p e) := ⟨[], .empty, rfl⟩

/-- A state that a run reaches from a reachable state is reachable. -/
theorem reachable_run (k : Nat) : ∀ s t : State, Reachable s → Host.Core.run Sys2Proof.core k s = .next t →
    Reachable t := by
  induction k with
  | zero => intro s t h e; cases e; exact h
  | succ k ih =>
    intro s t h e
    cases g : step s with
    | next u => rw [run_succ k g] at e; exact ih u t (.step s u h g) e
    | fault r => exact nomatch r
    | refused r =>
      have g' : Sys2Proof.core.step s = .refused r := g
      have e' := (Host.Core.run.eq_2 Sys2Proof.core s k).symm.trans e
      rw [g'] at e'
      cases e'

/-- The inputs that take GETVER from reset to its read request. -/
def toRead : List Inputs :=
  [Inputs.silent, answering true 0#40, Inputs.silent, rested, Inputs.silent, Inputs.silent]

/-- Reset, with GETVER offered and both agents answering. -/
def fresh : State := { State.reset with port := offering 0x00000002#32, env := toRead }

/-! ### Witnesses: command words -/

theorem witness_DecodeOfEncodeIsTheCommand :
    ∀ i ∈ [Instr.rdreg 0xFF#8 65535#16, .getver, .getres, .gettvoc, .setaddr 0x00#8], i.wellFormed = true := by decide

theorem witness_EncodeOfDecodeIsTheWord : decode 0xFFFFFF01#32 = .ok (.rdreg 0xFF#8 65535#16) := by decide

theorem witness_WordDecodesExactlyWhenARowMatches :
    ⟨"SETADDR", 0x00000005#32, 0xFFFF00FF#32⟩ ∈ commandTable ∧
      (⟨"SETADDR", 0x00000005#32, 0xFFFF00FF#32⟩ : CommandRow).accepts 0x0000FF05#32 = true := by decide

/-- One word for each clause. -/
theorem witness_LegalWordLatchesItsOperands :
    (decode 0xFFFFFF01#32 = .ok (.rdreg 0xFF#8 65535#16) ∧ (0xFFFFFF01#32).extractLsb' 0 3 = 1#3) ∧
      (decode 0x00000002#32 = .ok .getver ∧ (0x00000002#32).extractLsb' 0 3 = 2#3) ∧
      (decode 0x00000003#32 = .ok .getres ∧ (0x00000003#32).extractLsb' 0 3 = 3#3) ∧
      (decode 0x00000004#32 = .ok .gettvoc ∧ (0x00000004#32).extractLsb' 0 3 = 4#3) ∧
      (decode 0x0000FF05#32 = .ok (.setaddr 0xFF#8) ∧ (0x0000FF05#32).extractLsb' 0 3 = 5#3) := by decide

theorem witness_FrameHeldIsTheCommandsFrame :
    (during .getver 1#3 false Inputs.silent []).holds .getver ∧ Instr.getver.isRead = true ∧
      (during (.setaddr 0x2B#8) 1#3 false Inputs.silent []).holds (.setaddr 0x2B#8) :=
  ⟨⟨rfl, rfl, rfl⟩, rfl, ⟨rfl, rfl, rfl⟩⟩

theorem witness_OneChangedByteIsDetected :
    frameOk goodFrame = true ∧ 0x13#8 ≠ goodFrame[(0 : Fin 5)] ∧ 0xE1#8 ≠ goodFrame[(4 : Fin 5)] :=
  ⟨frameOk_goodFrame, by decide, by decide⟩

/-! ### Witnesses: one step -/

/-- One state for each clause. -/
theorem witness_StepRunsTheDecodedCommand :
    ((start (offering 0x00000002#32) []).phase = 0#3 ∧ (start (offering 0x00000002#32) []).port.cmdValid = true ∧
      decode (start (offering 0x00000002#32) []).port.cmd = .ok .getver) ∧
    ((during .getver 2#3 true Inputs.silent []).phase ≠ 0#3 ∧
      (during .getver 2#3 true Inputs.silent []).latched = latch .getver) ∧
    (∃ t, exec .getver (during .getver 2#3 false Inputs.silent []) = .next t) := by
  refine ⟨by decide, by decide, _, rfl⟩

theorem witness_IdleEngineAcceptsLegalWord :
    (start (offering 0x00002B05#32) []).phase = 0#3 ∧ (start (offering 0x00002B05#32) []).port.cmdValid = true ∧
      decode (start (offering 0x00002B05#32) []).port.cmd = .ok (.setaddr 0x2B#8) := by decide

theorem witness_AcceptanceOfEachCommand : (start Inputs.silent []).phase = 0#3 := rfl

theorem witness_IdleEngineRejectsIllegalWord :
    (start (offering 0x00010002#32) []).phase = 0#3 ∧ (start (offering 0x00010002#32) []).port.cmdValid = true ∧
      decode (start (offering 0x00010002#32) []).port.cmd = .error .nonzeroDly := by decide

/-- The state in which a read command and in which SETADDR issues its write. -/
theorem witness_WriteIssueRequestsTheFrame :
    ∀ i ∈ [Instr.gettvoc, .setaddr 0xFF#8],
      (during i 1#3 false Inputs.silent []).phase = 1#3 ∧ (during i 1#3 false Inputs.silent []).pend = false ∧
        (during i 1#3 false Inputs.silent []).latched = latch i ∧
        (during i 1#3 false Inputs.silent []).tx = (latch i).tx ∧
        (during i 1#3 false Inputs.silent []).txlen = (latch i).txlen := by decide

/-- One state for each clause: failure, success of SETADDR, success of a read command. -/
theorem witness_WriteResponseEndsOrGoesOn :
    ∀ x ∈ [(Instr.getres, false), (.setaddr 0x2B#8, true), (.getres, true)],
      (during x.1 1#3 true (answering x.2 0#40) []).phase = 1#3 ∧
        (during x.1 1#3 true (answering x.2 0#40) []).pend = true ∧
        (during x.1 1#3 true (answering x.2 0#40) []).port.tDone = true ∧
        (during x.1 1#3 true (answering x.2 0#40) []).latched = latch x.1 ∧
        (during x.1 1#3 true (answering x.2 0#40) []).port.tOk = x.2 ∧
        ((during x.1 1#3 true (answering x.2 0#40) []).op = 5#3 ↔ x.1 = .setaddr 0x2B#8) := by decide

/-- With a delay of zero, too. -/
theorem witness_DelayIssueRequestsTheDelay :
    ∀ i ∈ [Instr.getver, .rdreg 0x11#8 0#16],
      (during i 2#3 false Inputs.silent []).phase = 2#3 ∧ (during i 2#3 false Inputs.silent []).pend = false ∧
        (during i 2#3 false Inputs.silent []).latched = latch i := by decide

theorem witness_DelayResponseGoesToRead :
    (during .getver 2#3 true rested []).phase = 2#3 ∧ (during .getver 2#3 true rested []).pend = true ∧
      (during .getver 2#3 true rested []).port.dDone = true ∧
      (during .getver 2#3 true rested []).latched = latch .getver := by decide

theorem witness_ReadIssueRequestsFiveBytes :
    (during .getver 3#3 false Inputs.silent []).phase = 3#3 ∧
      (during .getver 3#3 false Inputs.silent []).pend = false ∧
      (during .getver 3#3 false Inputs.silent []).latched = latch .getver := by decide

/-- One state for each clause. -/
theorem witness_ReadResponseStoresOrEnds :
    ∀ ok ∈ [false, true],
      (during .getver 3#3 true (answering ok 0xE078563412#40) []).phase = 3#3 ∧
        (during .getver 3#3 true (answering ok 0xE078563412#40) []).pend = true ∧
        (during .getver 3#3 true (answering ok 0xE078563412#40) []).port.tDone = true ∧
        (during .getver 3#3 true (answering ok 0xE078563412#40) []).latched = latch .getver ∧
        (during .getver 3#3 true (answering ok 0xE078563412#40) []).port.tOk = ok := by decide

/-- One state for each clause: a bad frame and a good one. -/
theorem witness_CheckStepComparesThenDecodes :
    (checking .gettvoc badFrame).phase = 4#3 ∧ (checking .gettvoc badFrame).latched = latch .gettvoc ∧
      crc8 [badFrame[0], badFrame[1], badFrame[2], badFrame[3]] ≠ badFrame[4] ∧
      (checking .gettvoc goodFrame).phase = 4#3 ∧ (checking .gettvoc goodFrame).latched = latch .gettvoc ∧
      crc8 [goodFrame[0], goodFrame[1], goodFrame[2], goodFrame[3]] = goodFrame[4] := by decide +kernel

/-- A step that ends a command with an error: the write fails. -/
theorem witness_CompletionReportsAndClears :
    (during .getver 1#3 true (answering false 0#40) []).phase ≠ 0#3 ∧
      ∃ t, step (during .getver 1#3 true (answering false 0#40) []) = .next t ∧ t.phase = 0#3 ∧ t.err ≠ 0b00#2 :=
  ⟨by decide, _, rfl, by decide, by decide⟩

/-- The good frame in CHECK, for each read command. -/
theorem witness_ReadCommandsReturnTheirReading :
    (∀ i ∈ [Instr.rdreg 0x11#8 30#16, .getver, .getres, .gettvoc],
      (checking i goodFrame).phase = 4#3 ∧ (checking i goodFrame).latched = latch i ∧
        (checking i goodFrame).rx = goodFrame) ∧
      frameOk goodFrame = true ∧
      0x12345678 = goodFrame[0].toNat * 2 ^ 24 + goodFrame[1].toNat * 2 ^ 16 + goodFrame[2].toNat * 2 ^ 8 +
        goodFrame[3].toNat :=
  ⟨by decide, frameOk_goodFrame, by decide⟩

/-- One state for each answer. -/
theorem witness_SetaddrFollowsTheTransport :
    ∀ ok ∈ [true, false],
      (during (.setaddr 0x2B#8) 1#3 true (answering ok 0#40) []).phase = 1#3 ∧
        (during (.setaddr 0x2B#8) 1#3 true (answering ok 0#40) []).pend = true ∧
        (during (.setaddr 0x2B#8) 1#3 true (answering ok 0#40) []).port.tDone = true ∧
        (during (.setaddr 0x2B#8) 1#3 true (answering ok 0#40) []).latched = latch (.setaddr 0x2B#8) ∧
        (during (.setaddr 0x2B#8) 1#3 true (answering ok 0#40) []).port.tOk = ok := by decide

theorem witness_OtherCommandIsHeld :
    (during .getver 2#3 true Inputs.silent []).phase ≠ 0#3 ∧
      (during .getver 2#3 true Inputs.silent []).latched ≠ latch (.setaddr 0x2B#8) := by decide

/-! ### Witnesses: frames and what the engine shows -/

/-- A step from one busy state to the next, the step in which SETADDR loads ADDR, the three issue steps, and a step of a
command that is held. -/
theorem witness_CommandsLeaveTheRestAlone :
    (∃ t, exec .getver (during .getver 1#3 true (answering true 0#40) []) = .next t ∧
      (during .getver 1#3 true (answering true 0#40) []).phase ≠ 0#3 ∧ t.phase ≠ 0#3 ∧
      (during .getver 1#3 true (answering true 0#40) []).phase ≠ 3#3) ∧
    (∃ t, exec (.setaddr 0x2B#8) (during (.setaddr 0x2B#8) 1#3 true (answering true 0#40) []) = .next t) ∧
    (∀ ph ∈ [1#3, 2#3, 3#3], (∃ t, exec .getver (during .getver ph false Inputs.silent []) = .next t) ∧
      (during .getver ph false Inputs.silent []).latched = latch .getver ∧
      (during .getver ph false Inputs.silent []).pend = false ∧
      traced (exec .getver (during .getver ph false Inputs.silent [])) ≠
        (during .getver ph false Inputs.silent []).hist) ∧
    (∃ t, exec .getres (during .getver 1#3 false Inputs.silent []) = .next t ∧
      (during .getver 1#3 false Inputs.silent []).latched ≠ latch .getres) :=
  ⟨⟨_, rfl, by decide, by decide, by decide⟩, ⟨_, rfl⟩, fun ph h => ⟨⟨_, exec_eq _ _⟩, rfl, rfl, by
    have k : ph = 1#3 ∨ ph = 2#3 ∨ ph = 3#3 := by simpa using h
    rcases k with rfl | rfl | rfl <;> decide⟩, _, rfl, by decide⟩

theorem witness_AddrIsWrittenOnlyBySetaddr :
    ∃ t, step (during (.setaddr 0x2B#8) 1#3 true (answering true 0#40) []) = .next t ∧
      t.addr ≠ (during (.setaddr 0x2B#8) 1#3 true (answering true 0#40) []).addr :=
  ⟨_, rfl, by decide⟩

/-- One step for each error kind; TRANSPORT from the write and from the read. -/
theorem witness_EachErrorKindHasItsStep :
    (∃ t, step (during .getver 1#3 true (answering false 0#40) []) = .next t ∧
      t.err ≠ (during .getver 1#3 true (answering false 0#40) []).err ∧ t.err = 0b01#2) ∧
    (∃ t, step (during .getver 3#3 true (answering false 0#40) []) = .next t ∧
      t.err ≠ (during .getver 3#3 true (answering false 0#40) []).err ∧ t.err = 0b01#2) ∧
    (∃ t, step (checking .getver badFrame) = .next t ∧ t.err ≠ (checking .getver badFrame).err ∧ t.err = 0b10#2) ∧
    (∃ t, step (start (offering 0x00000000#32) []) = .next t ∧
      t.err ≠ (start (offering 0x00000000#32) []).err ∧ t.err = 0b11#2) :=
  ⟨⟨_, rfl, by decide, by decide⟩, ⟨_, rfl, by decide, by decide⟩, ⟨_, rfl, by decide +kernel, by decide +kernel⟩,
    ⟨_, rfl, by decide, by decide⟩⟩

/-- A state for each phase. -/
theorem witness_PhaseFollowsItsOrder :
    (Inv (start Inputs.silent []) ∧ (start Inputs.silent []).phase = 0#3 ∧
      ∃ t, step (start Inputs.silent []) = .next t) ∧
    ∀ ph ∈ [1#3, 2#3, 3#3, 4#3], Inv (during .getver ph false Inputs.silent []) ∧
      (during .getver ph false Inputs.silent []).phase = ph ∧
      ∃ t, step (during .getver ph false Inputs.silent []) = .next t := by
  refine ⟨⟨inv_start _ _, rfl, _, rfl⟩, fun ph h => ?_⟩
  have k : ph = 1#3 ∨ ph = 2#3 ∨ ph = 3#3 ∨ ph = 4#3 := by simpa using h
  have hp : ph ≠ 0#3 := by rcases k with rfl | rfl | rfl | rfl <;> decide
  refine ⟨inv_during _ _ _ _ _ ?_, rfl, _, step_busy (s := during .getver ph false Inputs.silent []) hp⟩
  rcases k with rfl | rfl | rfl | rfl
  · exact .inl rfl
  · exact .inr (.inl ⟨rfl, .inl rfl⟩)
  · exact .inr (.inl ⟨rfl, .inr rfl⟩)
  · exact .inr (.inr ⟨rfl, rfl, rfl⟩)

theorem witness_StatusWordFields : ∃ s, Reachable s ∧ s.busy = true :=
  ⟨_, .step fresh _ (.reset _ _) rfl, rfl⟩

/-- A state for each clause: a write, a read, a delay, nothing. -/
theorem witness_HistoryRecordsTheRequestOnThePorts :
    (Inv (during (.setaddr 0x2B#8) 1#3 false Inputs.silent []) ∧
      (∃ t, step (during (.setaddr 0x2B#8) 1#3 false Inputs.silent []) = .next t) ∧
      (during (.setaddr 0x2B#8) 1#3 false Inputs.silent []).outputs.tReq = true ∧
      (during (.setaddr 0x2B#8) 1#3 false Inputs.silent []).outputs.tRw = some false) ∧
    (Inv (during .getver 3#3 false Inputs.silent []) ∧
      (∃ t, step (during .getver 3#3 false Inputs.silent []) = .next t) ∧
      (during .getver 3#3 false Inputs.silent []).outputs.tReq = true ∧
      (during .getver 3#3 false Inputs.silent []).outputs.tRw = some true) ∧
    (Inv (during .getver 2#3 false Inputs.silent []) ∧
      (∃ t, step (during .getver 2#3 false Inputs.silent []) = .next t) ∧
      (during .getver 2#3 false Inputs.silent []).outputs.dReq = true) ∧
    (Inv (during .getver 2#3 true Inputs.silent []) ∧
      (∃ t, step (during .getver 2#3 true Inputs.silent []) = .next t) ∧
      (during .getver 2#3 true Inputs.silent []).outputs.tReq = false ∧
      (during .getver 2#3 true Inputs.silent []).outputs.dReq = false) :=
  ⟨⟨inv_during _ _ _ _ _ (.inl rfl), ⟨_, rfl⟩, rfl, rfl⟩,
    ⟨inv_during _ _ _ _ _ (.inr (.inl ⟨rfl, .inr rfl⟩)), ⟨_, rfl⟩, rfl, rfl⟩,
    ⟨inv_during _ _ _ _ _ (.inr (.inl ⟨rfl, .inl rfl⟩)), ⟨_, rfl⟩, rfl⟩,
    ⟨inv_during _ _ _ _ _ (.inr (.inl ⟨rfl, .inl rfl⟩)), ⟨_, rfl⟩, rfl, rfl⟩⟩

/-! ### Witnesses: invariants -/

theorem witness_StepKeepsTheRegisterInvariant :
    Inv (during .getver 3#3 true (answering true 0#40) []) ∧
      ∃ t, step (during .getver 3#3 true (answering true 0#40) []) = .next t :=
  ⟨inv_during _ _ _ _ _ (.inr (.inl ⟨rfl, .inr rfl⟩)), _, rfl⟩

theorem witness_StepKeepsTheHistoryWhole :
    Inv (during .getver 1#3 false Inputs.silent []) ∧ TraceInv (during .getver 1#3 false Inputs.silent []) ∧
      ∃ t, step (during .getver 1#3 false Inputs.silent []) = .next t :=
  ⟨inv_during _ _ _ _ _ (.inl rfl), ⟨[], .empty, rfl⟩, _, rfl⟩

/-- Two idle reachable states; the second ended with ILLEGAL. -/
theorem witness_ReachableIdleStatesHaveTheIdleForm :
    (Reachable State.reset ∧ State.reset.phase = 0#3) ∧
      ∃ t, Reachable t ∧ t.phase = 0#3 ∧ t.err = 0b11#2 :=
  ⟨⟨.reset _ _, rfl⟩, _, .step _ _ (.reset (offering 0x00000000#32) []) rfl, rfl, rfl⟩

/-- A reachable state whose history holds a read. -/
theorem witness_EveryReadFollowsItsWriteAndDelay :
    ∃ t, Reachable t ∧ t.hist = [.write Config.initAddr [0x11#8], .delay 30#16] ++ BusEvent.read Config.initAddr 5 :: [] :=
  ⟨_, reachable_run 6 fresh _ (.reset _ _) rfl, rfl⟩

/-! ### Witnesses: whole commands -/

/-- The inputs of a read command that waits once for each answer. -/
def waits (ok : Bool) : List Inputs :=
  Inputs.silent :: ([Inputs.silent] ++ answering true 0#40 :: Inputs.silent :: ([Inputs.silent] ++ rested ::
    Inputs.silent :: ([Inputs.silent] ++ answering ok 0xE078563412#40 :: Inputs.silent :: [])))

/-- `pc` answers, the other ports as in the statement. -/
theorem witness_ReadCommandRunsToItsOutcome :
    (start (offering 0x00000003#32) (waits true)).phase = 0#3 ∧
      (start (offering 0x00000003#32) (waits true)).idleForm ∧
      (start (offering 0x00000003#32) (waits true)).port.cmdValid = true ∧
      decode (start (offering 0x00000003#32) (waits true)).port.cmd = .ok .getres ∧ Instr.getres.isRead = true ∧
      (start (offering 0x00000003#32) (waits true)).env = waits true ∧
      (∀ p ∈ [Inputs.silent], p.tDone = false ∧ p.dDone = false) ∧
      (answering true 0#40).tDone = true ∧ (answering true 0#40).tOk = true ∧ rested.dDone = true ∧
      (answering true 0xE078563412#40).tDone = true ∧ (answering true 0xE078563412#40).tOk = true := by decide

theorem witness_ReadCommandEndsWhenItsReadFails :
    (start (offering 0x00000004#32) (waits false)).phase = 0#3 ∧
      (start (offering 0x00000004#32) (waits false)).idleForm ∧
      (start (offering 0x00000004#32) (waits false)).port.cmdValid = true ∧
      decode (start (offering 0x00000004#32) (waits false)).port.cmd = .ok .gettvoc ∧ Instr.gettvoc.isRead = true ∧
      (start (offering 0x00000004#32) (waits false)).env = waits false ∧
      (∀ p ∈ [Inputs.silent], p.tDone = false ∧ p.dDone = false) ∧
      (answering true 0#40).tDone = true ∧ (answering true 0#40).tOk = true ∧ rested.dDone = true ∧
      (answering false 0xE078563412#40).tDone = true ∧ (answering false 0xE078563412#40).tOk = false := by decide

/-- The write of a read command, or of SETADDR, with one wait and then the answer. -/
theorem witness_ReadCommandShortCircuitsWhenItsWriteFails :
    (start (offering 0x001E1101#32) (Inputs.silent :: ([Inputs.silent] ++ answering false 0#40 :: []))).phase = 0#3 ∧
      (start (offering 0x001E1101#32) (Inputs.silent :: ([Inputs.silent] ++ answering false 0#40 :: []))).idleForm ∧
      (offering 0x001E1101#32).cmdValid = true ∧
      decode (offering 0x001E1101#32).cmd = .ok (.rdreg 0x11#8 30#16) ∧ (Instr.rdreg 0x11#8 30#16).isRead = true ∧
      (∀ p ∈ [Inputs.silent], p.tDone = false) ∧ (answering false 0#40).tDone = true ∧
      (answering false 0#40).tOk = false := by decide

theorem witness_SetaddrRunsToItsOutcome :
    (start (offering 0x00002B05#32) (Inputs.silent :: ([Inputs.silent] ++ answering true 0#40 :: []))).phase = 0#3 ∧
      (start (offering 0x00002B05#32) (Inputs.silent :: ([Inputs.silent] ++ answering true 0#40 :: []))).idleForm ∧
      (offering 0x00002B05#32).cmdValid = true ∧ decode (offering 0x00002B05#32).cmd = .ok (.setaddr 0x2B#8) ∧
      (∀ p ∈ [Inputs.silent], p.tDone = false) ∧ (answering true 0#40).tDone = true := by decide

theorem witness_GetverActsAsItsRdreg : (start Inputs.silent [answering true 0#40]).phase = 0#3 := rfl

/-- A read that nobody answers, while a command is offered and the delay agent speaks. -/
theorem witness_UnansweredEngineIsStuck :
    Inv (during .gettvoc 3#3 true (offering 0x00000002#32) [rested]) ∧
      (during .gettvoc 3#3 true (offering 0x00000002#32) [rested]).pend = true ∧
      ∀ p ∈ offering 0x00000002#32 :: [rested],
        (during .gettvoc 3#3 true (offering 0x00000002#32) [rested]).unanswered p :=
  ⟨inv_during _ _ _ _ _ (.inr (.inl ⟨rfl, .inr rfl⟩)), rfl, by decide⟩

/-- Both agents answer in each of the next seven steps. -/
def obliging : Inputs := { answering true 0xE078563412#40 with dDone := true }

theorem witness_AnsweredEngineFinishes :
    Inv (during .getver 1#3 false obliging (List.replicate 6 obliging)) ∧
      (during .getver 1#3 false obliging (List.replicate 6 obliging)).busy = true ∧
      (during .getver 1#3 false obliging (List.replicate 6 obliging)).responsive 7 :=
  ⟨inv_during _ _ _ _ _ (.inl rfl), rfl, by decide⟩

/-! ### Witnesses: what cannot be learnt or disturbed -/

theorem witness_BusyEngineIgnoresTheCommandPort : (during .getver 2#3 true Inputs.silent []).phase ≠ 0#3 := by decide

theorem witness_UntrustedBytesLeaveNoTrace :
    (checking .getver badFrame).phase = 4#3 ∧ frameOk (checking .getver badFrame).rx = false ∧
      frameOk rxZero = false := by decide +kernel

/-- One state for each clause: GETRES, GETTVOC, and RDREG with the frame whose reading is the sentinel. -/
theorem witness_GoodReadingEqualsSentinelOnlyForAllOnes :
    (∀ i ∈ [Instr.getres, .gettvoc, .getver], (checking i goodFrame).phase = 4#3 ∧
      ∃ t, step (checking i goodFrame) = .next t ∧ t.done = true ∧ t.err = 0b00#2) ∧
    (∃ t, step (checking (.rdreg 0x11#8 30#16) #v[0xFF#8, 0xFF#8, 0xFF#8, 0xFF#8, 0x66#8]) = .next t ∧
      t.done = true ∧ t.err = 0b00#2 ∧ t.value = 0xFFFFFFFF#32) := by
  refine ⟨fun i h => ?_, _, rfl, ?_⟩
  · have k : i = .getres ∨ i = .gettvoc ∨ i = .getver := by simpa using h
    rcases k with rfl | rfl | rfl <;> exact ⟨rfl, _, rfl, by decide +kernel⟩
  · decide +kernel

theorem witness_SuccessMeansAGoodFrame :
    (checking .gettvoc goodFrame).phase ≠ 0#3 ∧ (checking .gettvoc goodFrame).op ≠ 5#3 ∧
      ∃ t, step (checking .gettvoc goodFrame) = .next t ∧ t.phase = 0#3 ∧ t.succeeded = true :=
  ⟨by decide, by decide, _, rfl, by decide +kernel, by decide +kernel⟩

/-- The DELAY phase of each read command, and of RDREG with each pair of register and delay of a careful host. -/
theorem witness_CarefulReadsRequestTheTablesDelay :
    ∀ i ∈ [Instr.rdreg 0x00#8 1000#16, .rdreg 0x11#8 30#16, .rdreg 0x20#8 1000#16, .getver, .getres, .gettvoc],
      i.isRead = true ∧ i.careful = true ∧ (during i 2#3 false Inputs.silent []).phase = 2#3 ∧
        (during i 2#3 false Inputs.silent []).pend = false ∧
        (during i 2#3 false Inputs.silent []).latched = latch i := by decide

/-- A state for each clause: quiet once, quiet for good, VALUE changed at acceptance, and at the end of a command. -/
theorem witness_QuietEngineKeepsItsRegisters :
    ((start Inputs.silent [offering 0x00000002#32]).phase = 0#3 ∧
      (start Inputs.silent [offering 0x00000002#32]).port.cmdValid = false) ∧
    ((start rested [answering true 0#40]).phase = 0#3 ∧ ∀ p ∈ rested :: [answering true 0#40], p.cmdValid = false) ∧
    (∃ t, step { start (offering 0x00000002#32) [] with value := 0x0B00004C#32, done := true } = .next t ∧
      t.value ≠ 0x0B00004C#32) ∧
    (∃ t, step (checking .getver goodFrame) = .next t ∧ t.value ≠ (checking .getver goodFrame).value) :=
  ⟨by decide, by decide, ⟨_, rfl, by decide⟩, _, rfl, by decide +kernel⟩

end Sys2Proof.Tests
end

section
/-! PROOFS. The statements about the registers: reset, the host's view of them, what each command leaves alone,
who writes ADDR, and the order of the phases. -/

namespace Sys2Proof.Machine

/-! ### The sequencer, phase by phase -/

/-- In WRITE the sequencer is the WRITE phase. -/
theorem advance_of_write {s : State} (h : s.phase = Phase.write) : advance s = writePhase s := if_pos h

/-- In DELAY the sequencer is the DELAY phase. -/
theorem advance_of_delay {s : State} (h : s.phase = Phase.delay) : advance s = delayPhase s := by
  simp [advance, h]

/-- In READ the sequencer is the READ phase. -/
theorem advance_of_read {s : State} (h : s.phase = Phase.read) : advance s = readPhase s := by
  simp [advance, h]

/-- In CHECK the sequencer is the frame check. -/
theorem advance_of_check {s : State} (h : s.phase = Phase.check) : advance s = check s := by
  simp [advance, h]

/-! ### What the sequencer changes -/

/-- What the phase requests in its issue step, if it has one (41_transaction.md R123, R125, R127). -/
def State.phaseRequest (s : State) : List BusEvent :=
  if s.phase = 1#3 then [.write s.addr s.frame]
  else if s.phase = 2#3 then [.delay s.dly]
  else if s.phase = 3#3 then [.read s.addr Config.replyLength]
  else []

/-- The four shapes of a sequencer step, by what they change: it issues a request, moves on within the command (or
waits), ends the command, or ends SETADDR with success. -/
theorem advance_shapes (s : State) :
    (s.pend = false ∧ ∃ e, s.phaseRequest = [e] ∧ advance s = issue e s) ∨
    ((s.pend = false → s.phaseRequest = []) ∧ ∃ r b p, (s.phase ≠ Phase.read → r = s.rx) ∧
      advance s = { s with rx := r, pend := b, phase := p }) ∨
    ((s.pend = false → s.phaseRequest = []) ∧ ∃ e v, advance s = complete e v s) ∨
    (s.pend = true ∧ s.phase = Phase.write ∧ s.port.tDone = true ∧ s.port.tOk = true ∧ s.op = Op.setaddr ∧
      advance s = complete .none Config.sentinel { s with addr := s.newa }) := by
  rcases advance_cases s with ⟨h, e⟩ | ⟨h, e⟩ | ⟨h, e⟩ | ⟨h, e⟩ | ⟨h, e⟩ <;> rw [e]
  · rcases writePhase_cases s with ⟨hp, g⟩ | ⟨hp, _, g⟩ | ⟨hp, _, _, g⟩ | ⟨hp, hd, ho, hop, g⟩ | ⟨hp, _, _, _, g⟩
    · exact .inl ⟨hp, _, by simp [State.phaseRequest, h], g⟩
    · exact .inr (.inl ⟨by simp [hp], _, _, _, fun _ => rfl, g⟩)
    · exact .inr (.inr (.inl ⟨by simp [hp], _, _, g⟩))
    · exact .inr (.inr (.inr ⟨hp, h, hd, ho, hop, g⟩))
    · exact .inr (.inl ⟨by simp [hp], _, _, _, fun _ => rfl, g⟩)
  · rcases delayPhase_cases s with ⟨hp, g⟩ | ⟨hp, _, g⟩ | ⟨hp, _, g⟩
    · exact .inl ⟨hp, _, by simp [State.phaseRequest, h], g⟩
    · exact .inr (.inl ⟨by simp [hp], _, _, _, fun _ => rfl, g⟩)
    · exact .inr (.inl ⟨by simp [hp], _, _, _, fun _ => rfl, g⟩)
  · rcases readPhase_cases s with ⟨hp, g⟩ | ⟨hp, _, g⟩ | ⟨hp, _, _, g⟩ | ⟨hp, _, _, g⟩
    · exact .inl ⟨hp, _, by simp [State.phaseRequest, h], g⟩
    · exact .inr (.inl ⟨by simp [hp], _, _, _, fun _ => rfl, g⟩)
    · exact .inr (.inr (.inl ⟨by simp [hp], _, _, g⟩))
    · exact .inr (.inl ⟨by simp [hp], _, _, _, fun k => absurd h k, g⟩)
  · have hr : s.pend = false → s.phaseRequest = [] := by simp [State.phaseRequest, h]
    rcases check_cases s with ⟨_, g⟩ | ⟨_, g⟩ <;> exact .inr (.inr (.inl ⟨hr, _, _, g⟩))
  · have hr : s.pend = false → s.phaseRequest = [] := by
      obtain ⟨_, _, _⟩ : s.phase ≠ 1#3 ∧ s.phase ≠ 2#3 ∧ s.phase ≠ 3#3 := by
        revert h; generalize s.phase = p; revert p; decide
      simp [State.phaseRequest, *]
    exact .inr (.inl ⟨hr, _, _, _, fun _ => rfl, rfl⟩)

/-- 10_state.md R21: the sequencer changes ADDR only in the successful write response of SETADDR. -/
theorem advance_addr (s : State) :
    (advance s).addr = s.addr ∨
    (s.phase = Phase.write ∧ s.pend = true ∧ s.port.tDone = true ∧ s.port.tOk = true ∧ s.op = Op.setaddr ∧
      (advance s).addr = s.newa) := by
  rcases advance_shapes s with ⟨_, _, _, g⟩ | ⟨_, _, _, _, _, g⟩ | ⟨_, _, _, g⟩ | ⟨hp, hw, hd, ho, hop, g⟩ <;> rw [g]
  · exact .inl rfl
  · exact .inl rfl
  · exact .inl rfl
  · exact .inr ⟨hw, hp, hd, ho, hop, rfl⟩

/-- 20_memory.md R62: the sequencer appends the requests of an issue step to the history, and nothing else. -/
theorem advance_hist (s : State) :
    (advance s).hist = s.hist ++ (if s.pend = false then s.phaseRequest else []) := by
  rcases advance_shapes s with ⟨hp, _, hr, g⟩ | ⟨hr, _, _, _, _, g⟩ | ⟨hr, _, _, g⟩ | ⟨hp, _, _, _, _, g⟩ <;> rw [g]
  · simp [hp, hr]
  · simpa using hr
  · simpa using hr
  · simp [hp]

/-- A sequencer step that appends to the history changes only PEND besides. -/
theorem advance_of_hist_ne {s : State} (h : (advance s).hist ≠ s.hist) :
    advance s = { s with hist := (advance s).hist, pend := true } := by
  rcases advance_shapes s with ⟨_, _, _, g⟩ | ⟨_, _, _, _, _, g⟩ | ⟨_, _, _, g⟩ | ⟨_, _, _, _, _, g⟩ <;> rw [g] at h ⊢
  · rfl
  · exact absurd rfl h
  · exact absurd rfl h
  · exact absurd rfl h

/-- The registers that no step within a command writes, RX outside READ among them (10_state.md R21, R22,
R29 to R32). -/
abbrev State.keepsWithin (s t : State) : Prop :=
  t.addr = s.addr ∧ t.value = s.value ∧ t.done = s.done ∧ t.err = s.err ∧ t.op = s.op ∧ t.reg = s.reg ∧
    t.dly = s.dly ∧ t.newa = s.newa ∧ t.tx = s.tx ∧ t.txlen = s.txlen ∧ t.crc = s.crc ∧
    (s.phase ≠ Phase.read → t.rx = s.rx)

/-- A sequencer step that does not end the command keeps the registers of the command and of its result. -/
theorem advance_keepsWithin {s : State} (h : (advance s).phase ≠ Phase.idle) : s.keepsWithin (advance s) := by
  rcases advance_shapes s with ⟨_, _, _, g⟩ | ⟨_, _, _, _, hr, g⟩ | ⟨_, _, _, g⟩ | ⟨_, _, _, _, _, g⟩ <;> rw [g] at h ⊢
  · simp [State.keepsWithin]
  · simpa [State.keepsWithin] using hr
  · exact absurd rfl h
  · exact absurd rfl h

/-! ### What a command leaves alone -/

/-- Accepting, advancing or holding a command leaves the ports as they are. -/
theorem command_ports (l : Latched) (s : State) : (command l s).port = s.port ∧ (command l s).env = s.env := by
  rcases command_cases l s with ⟨_, g⟩ | ⟨_, _, g⟩ | ⟨_, _, g⟩ <;> rw [g]
  · simp
  · exact advance_ports s
  · simp

/-- A command changes ADDR only as the SETADDR in progress whose write is answered with success; its operand is the new
ADDR. -/
theorem command_addr (i : Instr) (s : State) :
    (command (latch i) s).addr = s.addr ∨
    ∃ n, i = .setaddr n ∧ (command (latch i) s).addr = n ∧ s.phase = Phase.write ∧ s.pend = true ∧
      s.port.tDone = true ∧ s.port.tOk = true := by
  rcases command_cases (latch i) s with ⟨_, g⟩ | ⟨_, hl, g⟩ | ⟨_, _, g⟩ <;> rw [g]
  · exact .inl (by simp)
  · rcases advance_addr s with ha | ⟨hw, hp, hd, ho, hop, ha⟩
    · exact .inl ha
    · obtain ⟨n, rfl⟩ := (latch_op_setaddr i).1 (by rw [← hl]; exact hop)
      have hn : s.newa = n := congrArg Latched.newa hl
      exact .inr ⟨n, rfl, ha.trans hn, hw, hp, hd, ho⟩
  · exact .inl rfl

/-- A command appends to the history the request of its issue step, while it is in progress, and nothing else. -/
theorem command_hist (l : Latched) (s : State) :
    (command l s).hist = s.hist ++ (if s.latched = l ∧ s.pend = false then s.phaseRequest else []) := by
  rcases command_cases l s with ⟨h, g⟩ | ⟨_, hl, g⟩ | ⟨_, hl, g⟩ <;> rw [g]
  · simp [State.phaseRequest, h]
  · simp [advance_hist, hl]
  · simp [hl]

/-- A command that appends to the history changes only PEND besides. -/
theorem command_of_hist_ne {l : Latched} {s : State} (h : (command l s).hist ≠ s.hist) :
    command l s = { s with hist := (command l s).hist, pend := true } := by
  rcases command_cases l s with ⟨_, g⟩ | ⟨_, _, g⟩ | ⟨_, _, g⟩ <;> rw [g] at h ⊢
  · exact absurd (by simp) h
  · exact advance_of_hist_ne h
  · exact absurd rfl h

/-- From one busy state to the next a command keeps the registers of the command and of its result. -/
theorem command_keepsWithin {l : Latched} {s : State} (hs : s.phase ≠ Phase.idle)
    (ht : (command l s).phase ≠ Phase.idle) : s.keepsWithin (command l s) := by
  rcases command_cases l s with ⟨h, _⟩ | ⟨_, _, g⟩ | ⟨_, _, g⟩
  · exact absurd h hs
  · rw [g] at ht ⊢; exact advance_keepsWithin ht
  · simp [g, State.keepsWithin]

/-- Settles O35: a command is accepted, advanced or held, and each clause holds of all three. -/
theorem commandsLeaveTheRestAlone : Obligations.CommandsLeaveTheRestAlone := by
  intro i s t h
  rw [exec_eq] at h
  cases h
  obtain ⟨hport, henv⟩ := command_ports (latch i) s
  exact ⟨hport, henv, command_addr i s, command_hist (latch i) s, command_of_hist_ne, command_keepsWithin⟩

/-- Settles O36: an idle step keeps ADDR, and a busy one is a step of the sequencer. -/
theorem addrIsWrittenOnlyBySetaddr : Obligations.AddrIsWrittenOnlyBySetaddr := by
  intro s t h hne
  rcases step_cases h with ⟨_, rfl⟩ | ⟨_, _, _, _, rfl⟩ | ⟨_, _, _, rfl⟩ | ⟨_, _, rfl⟩
  · exact (advance_addr s).resolve_left hne
  all_goals exact absurd (by simp) hne

/-! ### The order of the phases -/

/-- WRITE stays, ends, or goes to DELAY, and then not for SETADDR (10_state.md R27). -/
theorem writePhase_phase (s : State) :
    (writePhase s).phase = s.phase ∨ (writePhase s).phase = Phase.idle ∨
      ((writePhase s).phase = Phase.delay ∧ s.op ≠ Op.setaddr) := by
  rcases writePhase_cases s with ⟨_, g⟩ | ⟨_, _, g⟩ | ⟨_, _, _, g⟩ | ⟨_, _, _, _, g⟩ | ⟨_, _, _, hop, g⟩ <;> rw [g]
  · exact .inl rfl
  · exact .inl rfl
  · exact .inr (.inl rfl)
  · exact .inr (.inl rfl)
  · exact .inr (.inr ⟨rfl, hop⟩)

/-- DELAY stays or goes to READ (10_state.md R27). -/
theorem delayPhase_phase (s : State) :
    (delayPhase s).phase = s.phase ∨ (delayPhase s).phase = Phase.read := by
  rcases delayPhase_cases s with ⟨_, g⟩ | ⟨_, _, g⟩ | ⟨_, _, g⟩ <;> rw [g]
  · exact .inl rfl
  · exact .inl rfl
  · exact .inr rfl

/-- READ stays, ends or goes to CHECK (10_state.md R27). -/
theorem readPhase_phase (s : State) :
    (readPhase s).phase = s.phase ∨ (readPhase s).phase = Phase.idle ∨ (readPhase s).phase = Phase.check := by
  rcases readPhase_cases s with ⟨_, g⟩ | ⟨_, _, g⟩ | ⟨_, _, _, g⟩ | ⟨_, _, _, g⟩ <;> rw [g]
  · exact .inl rfl
  · exact .inl rfl
  · exact .inr (.inl rfl)
  · exact .inr (.inr rfl)

/-- CHECK always ends the command (10_state.md R27). -/
theorem check_phase (s : State) : (check s).phase = Phase.idle := by
  rcases check_cases s with ⟨_, g⟩ | ⟨_, g⟩ <;> rw [g] <;> rfl

/-- An idle engine stays idle or accepts a command (10_state.md R27). -/
theorem step_idle_phase {s t : State} (hs : s.phase = Phase.idle) (h : step s = .next t) :
    t.phase = Phase.idle ∨ t.phase = Phase.write := by
  rcases step_cases h with ⟨k, _⟩ | ⟨_, _, _, _, rfl⟩ | ⟨_, _, _, rfl⟩ | ⟨_, _, rfl⟩
  · exact absurd hs k
  · exact .inr rfl
  · exact .inl hs
  · exact .inl hs

/-- The phase after a busy step is the sequencer's. -/
theorem step_busy_phase {s t : State} (hs : s.phase ≠ Phase.idle) (h : step s = .next t) :
    t.phase = (advance s).phase := by
  rw [step_busy hs] at h
  cases h
  rfl

/-- Settles O38: phase by phase; the transitions hold of every state, so the invariant is not used. -/
theorem phaseFollowsItsOrder : Obligations.PhaseFollowsItsOrder := by
  intro s t _ h
  refine ⟨fun hs => step_idle_phase hs h, fun hs => ?_, fun hs => ?_, fun hs => ?_, fun hs => ?_⟩
  all_goals rw [step_busy_phase (by simp [hs]) h]
  · rw [advance_of_write hs, ← hs]; exact writePhase_phase s
  · rw [advance_of_delay hs, ← hs]; exact delayPhase_phase s
  · rw [advance_of_read hs, ← hs]; exact readPhase_phase s
  · rw [advance_of_check hs]; exact check_phase s

/-! ### A frame that fails its checksum -/

/-- CHECK of a bad frame raises INTEGRITY (41_transaction.md R129). -/
theorem check_of_bad_frame {s : State} (h : frameOk s.rx = false) : check s = raiseError .integrity s := by
  rcases check_cases s with ⟨k, _⟩ | ⟨_, g⟩
  · simp [h] at k
  · exact g

/-- The RX register does not survive an error completion. -/
theorem raiseError_rx_irrelevant (e : ErrKind) (s : State) (rx : Vector Byte 5) :
    raiseError e { s with rx := rx } = raiseError e s := rfl

/-- In CHECK with a bad frame the machine's step is the INTEGRITY completion. -/
theorem step_of_bad_frame {s : State} (hs : s.phase = Phase.check) (h : frameOk s.rx = false) :
    step s = .next (raiseError .integrity s).tick := by
  rw [step_busy (by simp [hs]), advance_of_check hs, check_of_bad_frame h]

/-- Settles O55: either frame leads to the INTEGRITY completion, which clears RX. -/
theorem untrustedBytesLeaveNoTrace : Obligations.UntrustedBytesLeaveNoTrace := by
  intro s rx hs hbad hbad'
  have hs' : ({ s with rx := rx } : State).phase = Phase.check := hs
  rw [step_of_bad_frame hs hbad, step_of_bad_frame hs' hbad', raiseError_rx_irrelevant]

/-! ### Reset and the host's registers -/

/-- Settles O1: every clause is a field of the state after reset. -/
theorem resetLeavesEveryRegisterAtItsValue : Obligations.ResetLeavesEveryRegisterAtItsValue :=
  ⟨rfl, rfl, rfl, rfl, rfl, rfl, rfl, rfl, rfl, rfl, rfl, rfl, rfl, rfl, rfl⟩

/-- ADDR is read zero-extended: the word has the value of the register (10_state.md R26). -/
theorem hostRead_addr (s : State) : ∃ v, s.hostRead .addr = some v ∧ v.toNat = s.addr.toNat :=
  ⟨s.addr.setWidth 32, rfl, BitVec.toNat_setWidth_of_le (by decide)⟩

/-- A host write of CMD shows the word on the command port and changes no register (10_state.md R26). -/
theorem hostWrite_cmd (s : State) (w : Word) :
    ∃ t, s.hostWrite w .cmd = some t ∧ t.port.cmdValid = true ∧ t.port.cmd = w ∧ t.sameRegisters s ∧
      t.hist = s.hist ∧ t.env = s.env :=
  ⟨s.offer w, rfl, by simp [State.sameRegisters]⟩

/-- Settles O40. -/
theorem hostRegistersReadAsNumbered : Obligations.HostRegistersReadAsNumbered :=
  ⟨rfl, rfl, rfl, rfl, fun s =>
    ⟨rfl, rfl, rfl, hostRead_addr s, hostWrite_cmd s, fun _ => ⟨rfl, rfl, rfl⟩⟩⟩

/-- The register invariant holds after reset, whatever the ports will show: the engine is idle in the idle form, with no
error and no result (10_state.md R35, R36). -/
theorem inv_reset (p : Inputs) (e : List Inputs) : Inv { State.reset with port := p, env := e } where
  phase_legal := show 0#3 ≤ 4#3 by decide
  pend_phase := nofun
  idle_form := fun _ => ⟨rfl, rfl, rfl, rfl, rfl, rfl, rfl, rfl, rfl⟩
  busy_status := fun h => absurd rfl h
  busy_holds := fun h => absurd rfl h
  past_write := by rintro (h | h | h) <;> cases h
  rx_zero := fun _ => rfl
  crc_zero := rfl
  error_value := fun h => absurd rfl h
  not_done := fun _ => ⟨rfl, rfl⟩

/-- The history invariant holds after reset: no event, and no command in progress. -/
theorem traceInv_reset (p : Inputs) (e : List Inputs) : TraceInv { State.reset with port := p, env := e } :=
  ⟨[], .empty, rfl⟩

/-- Settles O42. -/
theorem invariantsHoldAtReset : Obligations.InvariantsHoldAtReset := fun p e => ⟨inv_reset p e, traceInv_reset p e⟩

end Sys2Proof.Machine
end

section
/-! PROOFS. The statements about the event history (20_memory.md R62 to R64): it is whole transactions and then the
command in progress, and each read follows its delay and its write. -/

namespace Sys2Proof.Machine

/-! ### The four kinds of sequencer steps -/

/-- PHASE is one that asks an agent for something (10_state.md R27, R28). -/
abbrev State.asking (s : State) : Prop := s.phase = Phase.write ∨ s.phase = Phase.delay ∨ s.phase = Phase.read

/-- A command can end in the coming step: its write or its read is outstanding, or it is in CHECK. -/
abbrev State.ending (s : State) : Prop :=
  (s.phase = Phase.write ∧ s.pend = true) ∨ (s.phase = Phase.read ∧ s.pend = true) ∨ s.phase = Phase.check

/-- A sequencer step issues the request of its phase, goes on to the next phase after an answer, ends the command, or
waits (41_transaction.md R120). -/
theorem advance_kinds (s : State) :
    (s.asking ∧ s.pend = false ∧ ∃ e, s.phaseRequest = [e] ∧ advance s = issue e s) ∨
    (s.asking ∧ s.pend = true ∧ ∃ r, advance s = { s with rx := r, pend := false, phase := s.phase + 1#3 }) ∨
    (s.ending ∧ (advance s).phase = Phase.idle ∧ (advance s).done = true ∧ (advance s).hist = s.hist) ∨
    (s.phase ≠ Phase.check ∧ (s.asking → s.pend = true ∧ s.unanswered s.port) ∧ advance s = s) := by
  rcases advance_outcomes s with ⟨h, p, g⟩ | ⟨h, p, _, _, g⟩ | ⟨h, p, _, _, _, g⟩ | ⟨h, p, _, _, _, g⟩ | ⟨h, p, g⟩ |
    ⟨h, p, _, g⟩ | ⟨h, p, g⟩ | ⟨h, p, _, _, g⟩ | ⟨h, p, _, _, g⟩ | ⟨h, _, g⟩ | ⟨h, _, g⟩ | ⟨hc, p, ht, hd, g⟩ <;> rw [g]
  · exact .inl ⟨.inl h, p, _, by simp [State.phaseRequest, h], rfl⟩
  · exact .inr (.inr (.inl ⟨.inl ⟨h, p⟩, rfl, rfl, rfl⟩))
  · exact .inr (.inr (.inl ⟨.inl ⟨h, p⟩, rfl, rfl, rfl⟩))
  · exact .inr (.inl ⟨.inl h, p, s.rx, by rw [h]; rfl⟩)
  · exact .inl ⟨.inr (.inl h), p, _, by simp [State.phaseRequest, h], rfl⟩
  · exact .inr (.inl ⟨.inr (.inl h), p, s.rx, by rw [h]; rfl⟩)
  · exact .inl ⟨.inr (.inr h), p, _, by simp [State.phaseRequest, h], rfl⟩
  · exact .inr (.inr (.inl ⟨.inr (.inl ⟨h, p⟩), rfl, rfl, rfl⟩))
  · exact .inr (.inl ⟨.inr (.inr h), p, _, by rw [h]; rfl⟩)
  · exact .inr (.inr (.inl ⟨.inr (.inr h), rfl, rfl, rfl⟩))
  · exact .inr (.inr (.inl ⟨.inr (.inr h), rfl, rfl, rfl⟩))
  · refine .inr (.inr (.inr ⟨hc, fun ha => ⟨p ha, ?_⟩, rfl⟩))
    rcases ha with h | h | h
    · exact .inl ⟨.inl h, ht (.inl h)⟩
    · exact .inr ⟨h, hd h⟩
    · exact .inl ⟨.inr h, ht (.inr h)⟩

/-- The phase after an asking one is not IDLE. -/
theorem State.asking.next_ne_idle {s : State} (h : s.asking) : s.phase + 1#3 ≠ Phase.idle := by
  rcases h with e | e | e <;> simp [e]

/-- A command ends in the step in which it can end, and no request is issued then. -/
theorem ending_of_advance_idle {s : State} (hs : s.phase ≠ Phase.idle) (ht : (advance s).phase = Phase.idle) :
    s.ending ∧ (advance s).hist = s.hist := by
  rcases advance_kinds s with ⟨_, _, _, _, g⟩ | ⟨ha, _, _, g⟩ | ⟨he, _, _, hh⟩ | ⟨_, _, g⟩
  · rw [g] at ht; exact absurd ht hs
  · rw [g] at ht; exact absurd ht ha.next_ne_idle
  · exact ⟨he, hh⟩
  · rw [g] at ht; exact absurd ht hs

/-! ### The frame of the command in progress -/

section

variable {s t : State} {i : Instr}

/-- The frame of a read command is its register id alone (30_encoding.md R86). -/
theorem State.holds.frame_of_read (h : s.holds i) (hop : s.op ≠ Op.setaddr) : s.frame = [s.reg] := by
  obtain ⟨hl, htx, hlen⟩ := h
  have hop' : (latch i).op ≠ Op.setaddr := by rw [← hl]; exact hop
  have hreg : (latch i).reg = s.reg := by rw [← hl]; rfl
  simp [State.frame, htx, hlen, Latched.tx, Latched.txlen, hop', hreg, selectFrame]

/-- The frame of SETADDR is the six-byte address-change frame (30_encoding.md R89). -/
theorem State.holds.frame_of_setaddr (h : s.holds i) (hop : s.op = Op.setaddr) :
    s.frame = [0x21#8, s.newa, ~~~s.newa, s.newa, ~~~s.newa, 0x00#8] := by
  obtain ⟨hl, htx, hlen⟩ := h
  have hop' : (latch i).op = Op.setaddr := by rw [← hl]; exact hop
  have hnewa : (latch i).newa = s.newa := by rw [← hl]; rfl
  simp [State.frame, htx, hlen, Latched.tx, Latched.txlen, hop', hnewa, addrFrame]

/-- The frame of a command fits TX. -/
theorem State.holds.txlen_le (h : s.holds i) : s.txlen.toNat ≤ 6 := by
  obtain ⟨_, _, hlen⟩ := h
  rw [hlen, Latched.txlen]
  split <;> decide

/-- An accepted command is the one that the registers hold. -/
theorem accept_holds (i : Instr) (s : State) : (accept (latch i) s).holds i := ⟨rfl, rfl, rfl⟩

/-- The registers hold the same command after a step within it. -/
theorem State.holds.of_keepsWithin (h : s.holds i) (k : s.keepsWithin t) : t.holds i := by
  obtain ⟨_, _, _, _, hop, hreg, hdly, hnewa, htx, htxlen, _⟩ := k
  simpa [State.holds, State.latched, hop, hreg, hdly, hnewa, htx, htxlen] using h

end

/-! ### Every step keeps the frame that of one command -/

/-- What the history needs of the registers: busy, they hold one command, and only a read command goes past WRITE. -/
structure State.Framed (s : State) : Prop where
  busy_holds : s.phase ≠ Phase.idle → ∃ i, s.holds i
  past_write : s.phase ≠ Phase.idle → s.phase ≠ Phase.write → s.op ≠ Op.setaddr

/-- The register invariant gives what the history needs. -/
theorem Inv.framed {s : State} (h : Inv s) : s.Framed := by
  refine ⟨h.busy_holds, fun hi hw => h.past_write ?_⟩
  have hp := h.phase_legal
  revert hi hw hp
  generalize s.phase = p
  revert p
  decide

/-- An idle engine has nothing to hold. -/
theorem State.Framed.of_idle {s : State} (h : s.phase = Phase.idle) : s.Framed :=
  ⟨fun k => absurd h k, fun k => absurd h k⟩

/-- The phase after a sequencer step: the same, idle, or the next one of a read command (10_state.md R27). -/
theorem advance_phase (s : State) :
    (advance s).phase = s.phase ∨ (advance s).phase = Phase.idle ∨
      (s.phase = Phase.write ∧ s.op ≠ Op.setaddr) ∨ s.phase = Phase.delay ∨ s.phase = Phase.read := by
  rcases advance_cases s with ⟨h, g⟩ | ⟨h, _⟩ | ⟨h, _⟩ | ⟨_, g⟩ | ⟨_, g⟩
  · rw [g]
    rcases writePhase_phase s with k | k | ⟨_, hop⟩
    · exact .inl k
    · exact .inr (.inl k)
    · exact .inr (.inr (.inl ⟨h, hop⟩))
  · exact .inr (.inr (.inr (.inl h)))
  · exact .inr (.inr (.inr (.inr h)))
  · exact .inr (.inl (by rw [g]; exact check_phase s))
  · exact .inl (by rw [g])

/-- A sequencer step within a command keeps the frame that of one command. -/
theorem advance_framed {s : State} (h : s.Framed) (hs : s.phase ≠ Phase.idle) : (advance s).Framed := by
  by_cases ht : (advance s).phase = Phase.idle
  · exact .of_idle ht
  have k := advance_keepsWithin ht
  have hop : (advance s).op = s.op := by obtain ⟨_, _, _, _, hop, _⟩ := k; exact hop
  obtain ⟨i, hi⟩ := h.busy_holds hs
  refine ⟨fun _ => ⟨i, hi.of_keepsWithin k⟩, fun _ hw => ?_⟩
  rw [hop]
  rcases advance_phase s with e | e | ⟨_, e⟩ | e | e
  · exact h.past_write hs (e ▸ hw)
  · exact absurd e ht
  · exact e
  · exact h.past_write hs (by simp [e])
  · exact h.past_write hs (by simp [e])

/-- Every step keeps the frame that of one command. -/
theorem step_keeps_framed {s t : State} (h : s.Framed) (e : step s = .next t) : t.Framed := by
  rcases step_cases e with ⟨hs, rfl⟩ | ⟨_, _, i, _, rfl⟩ | ⟨hs, _, _, rfl⟩ | ⟨hs, _, rfl⟩
  · obtain ⟨hb, hw⟩ := advance_framed h hs
    exact ⟨hb, hw⟩
  · exact ⟨fun _ => ⟨i, accept_holds i s⟩, fun _ k => absurd rfl k⟩
  · exact .of_idle hs
  · exact .of_idle hs

/-! ### The events of the command in progress -/

section

variable {s : State}

theorem partialTrace_of_idle (h : s.phase = Phase.idle) : s.partialTrace = [] := by
  simp [State.partialTrace, h]

theorem partialTrace_of_write (h : s.phase = Phase.write) :
    s.partialTrace = if s.pend then [.write s.addr s.frame] else [] := by
  simp [State.partialTrace, h]

theorem partialTrace_of_read (h : s.phase = Phase.read) :
    s.partialTrace = if s.pend then [.write s.addr s.frame, .delay s.dly, .read s.addr 5]
      else [.write s.addr s.frame, .delay s.dly] := by
  simp [State.partialTrace, h]

theorem partialTrace_of_check (h : s.phase = Phase.check) :
    s.partialTrace = [.write s.addr s.frame, .delay s.dly, .read s.addr 5] := by
  simp [State.partialTrace, h]

/-- A step within a command adds to its events the request that it issues. -/
theorem advance_partialTrace (ht : (advance s).phase ≠ Phase.idle) :
    (advance s).partialTrace = s.partialTrace ++ (if s.pend = false then s.phaseRequest else []) := by
  rcases advance_kinds s with ⟨ha, p, e, hr, g⟩ | ⟨ha, p, r, g⟩ | ⟨_, hi, _⟩ | ⟨_, hp, g⟩
  · rcases ha with h | h | h <;> simp [g, State.partialTrace, State.phaseRequest, State.frame, h, p] at hr ⊢
  · rcases ha with h | h | h <;> simp [g, State.partialTrace, State.frame, h, p]
  · exact absurd hi ht
  · have hr : s.pend = false → s.phaseRequest = [] := fun p => by
      have ha : ¬ s.asking := fun ha => by simp [(hp ha).1] at p
      simp only [State.asking, not_or] at ha
      simp [State.phaseRequest, ha]
    simpa [g] using hr

end

/-! ### Whole transactions -/

/-- The write of any command is a transaction of its own, if it is the last event. -/
theorem WholeTraces.snoc_write {s : State} {i : Instr} {h : List BusEvent} (hw : WholeTraces h) (hi : s.holds i) :
    WholeTraces (h ++ [.write s.addr s.frame]) := by
  by_cases hop : s.op = Op.setaddr
  · rw [hi.frame_of_setaddr hop]; exact .addressChange h _ _ hw
  · rw [hi.frame_of_read hop]; exact .writeFailed h _ _ hw

/-- The write, the delay and the read of a read command are a whole transaction. -/
theorem WholeTraces.snoc_read {s : State} {i : Instr} {h : List BusEvent} (hw : WholeTraces h) (hi : s.holds i)
    (hop : s.op ≠ Op.setaddr) :
    WholeTraces (h ++ [.write s.addr s.frame, .delay s.dly, .read s.addr 5]) := by
  rw [hi.frame_of_read hop]; exact .readDone h _ _ _ hw

/-- When a command ends, its events are a whole transaction (20_memory.md R63). -/
theorem WholeTraces.snoc_ended {s : State} {h : List BusEvent} (hw : WholeTraces h) (hf : s.Framed)
    (hs : s.phase ≠ Phase.idle) (ht : (advance s).phase = Phase.idle) : WholeTraces (h ++ s.partialTrace) := by
  obtain ⟨i, hi⟩ := hf.busy_holds hs
  rcases (ending_of_advance_idle hs ht).1 with ⟨e, p⟩ | ⟨e, p⟩ | e
  · rw [partialTrace_of_write e, if_pos p]; exact hw.snoc_write hi
  · rw [partialTrace_of_read e, if_pos p]; exact hw.snoc_read hi (hf.past_write hs (by simp [e]))
  · rw [partialTrace_of_check e]; exact hw.snoc_read hi (hf.past_write hs (by simp [e]))

/-- A sequencer step keeps the history whole: it ends the command, whose events become a transaction, or it adds the
same request to the history and to the events of the command. -/
theorem advance_traceInv {s : State} (hf : s.Framed) (h : TraceInv s) (hs : s.phase ≠ Phase.idle) :
    TraceInv (advance s) := by
  obtain ⟨done, hw, hh⟩ := h
  by_cases ht : (advance s).phase = Phase.idle
  · refine ⟨done ++ s.partialTrace, hw.snoc_ended hf hs ht, ?_⟩
    rw [(ending_of_advance_idle hs ht).2, partialTrace_of_idle ht, List.append_nil, hh]
  · refine ⟨done, hw, ?_⟩
    rw [advance_hist, advance_partialTrace ht, hh, List.append_assoc]

/-- With neither state in the middle of its requests, the same history stays whole. -/
theorem TraceInv.of_partialTrace_nil {s t : State} (h : TraceInv s) (hs : s.partialTrace = [])
    (ht : t.partialTrace = []) (hh : t.hist = s.hist) : TraceInv t := by
  obtain ⟨done, hw, he⟩ := h
  exact ⟨done, hw, by rw [hh, he, hs, ht]⟩

/-- Every step keeps the history whole. -/
theorem step_keeps_traceInv {s t : State} (hf : s.Framed) (h : TraceInv s) (e : step s = .next t) : TraceInv t := by
  rcases step_cases e with ⟨hs, rfl⟩ | ⟨hs, _, i, _, rfl⟩ | ⟨hs, _, _, rfl⟩ | ⟨hs, _, rfl⟩
  · exact advance_traceInv hf h hs
  all_goals refine h.of_partialTrace_nil (partialTrace_of_idle hs) ?_ rfl
  · simp [State.partialTrace]
  · exact partialTrace_of_idle hs
  · exact partialTrace_of_idle hs

/-- Settles O44: of the register invariant only the frame of the command in progress is used. -/
theorem stepKeepsTheHistoryWhole : Obligations.StepKeepsTheHistoryWhole :=
  fun _ _ hi h e => step_keeps_traceInv hi.framed h e

/-! ### Each read after its delay and its write -/

/-- The last event of a history matters to `readsSettled` only if it is a read. -/
theorem readsSettled_snoc {h : List BusEvent} {e : BusEvent} : readsSettled (h ++ [e]) ↔
    readsSettled h ∧ ∀ a n, e = .read a n → n = 5 ∧ ∃ earlier r ms, h = earlier ++ [.write a [r], .delay ms] := by
  constructor
  · refine fun k => ⟨fun before rest a n hh => ?_, fun a n he => ?_⟩
    · exact k before (rest ++ [e]) a n (by simp [hh])
    · exact k h [] a n (by rw [he])
  · rintro ⟨k, ke⟩ before rest a n hh
    rcases List.eq_nil_or_concat rest with rfl | ⟨rest, x, rfl⟩
    · obtain ⟨rfl, he⟩ := List.append_inj' hh rfl
      exact ke a n (List.singleton_inj.1 he)
    · have hh' : h ++ [e] = (before ++ .read a n :: rest) ++ [x] := by simpa using hh
      exact k before rest a n (List.append_inj' hh' rfl).1

theorem readsSettled_nil : readsSettled [] := by
  intro before rest a n h
  simp at h

@[simp] theorem readsSettled_snoc_write {h : List BusEvent} {a : Byte} {f : List Byte} :
    readsSettled (h ++ [.write a f]) ↔ readsSettled h := by
  simp [readsSettled_snoc]

@[simp] theorem readsSettled_snoc_write_delay {h : List BusEvent} {a : Byte} {f : List Byte} {ms : Millis} :
    readsSettled (h ++ [.write a f, .delay ms]) ↔ readsSettled h := by
  rw [List.append_cons, readsSettled_snoc, readsSettled_snoc_write]
  simp

/-- A read of five bytes directly after its write and its delay is as it should be. -/
@[simp] theorem readsSettled_snoc_read {h : List BusEvent} {a r : Byte} {ms : Millis} :
    readsSettled (h ++ [.write a [r], .delay ms, .read a 5]) ↔ readsSettled h := by
  have e : h ++ [.write a [r], .delay ms, .read a 5] = (h ++ [.write a [r], .delay ms]) ++ [.read a 5] := by simp
  rw [e, readsSettled_snoc, readsSettled_snoc_write_delay]
  refine and_iff_left fun b n hb => ?_
  cases hb
  exact ⟨rfl, h, r, ms, rfl⟩

/-- In whole transactions each read follows its delay and its write. -/
theorem WholeTraces.readsSettled {h : List BusEvent} (hw : WholeTraces h) : readsSettled h := by
  induction hw with
  | empty => exact readsSettled_nil
  | writeFailed h a r _ ih => exact readsSettled_snoc_write.2 ih
  | readDone h a r ms _ ih => exact readsSettled_snoc_read.2 ih
  | addressChange h a n _ ih => exact readsSettled_snoc_write.2 ih

/-- A command in progress adds its read only after its delay and its write. -/
theorem State.Framed.readsSettled_partialTrace {s : State} {h : List BusEvent} (hf : s.Framed)
    (k : readsSettled h) : readsSettled (h ++ s.partialTrace) := by
  by_cases hi : s.phase = Phase.idle
  · simpa [partialTrace_of_idle hi] using k
  by_cases hw : s.phase = Phase.write
  · rw [partialTrace_of_write hw]
    split <;> simpa using k
  obtain ⟨i, hh⟩ := hf.busy_holds hi
  have hframe : s.frame = [s.reg] := hh.frame_of_read (hf.past_write hi hw)
  simp only [State.partialTrace, hi, hw, if_false, hframe]
  split_ifs <;> simpa using k

/-- In every reachable state the history is whole and the frame that of one command. -/
theorem Reachable.framed_traceInv {s : State} (h : Reachable s) : s.Framed ∧ TraceInv s := by
  induction h with
  | reset p e => exact ⟨(inv_reset p e).framed, traceInv_reset p e⟩
  | step s t _ e ih =>
    obtain ⟨hf, ht⟩ := ih
    exact ⟨step_keeps_framed hf e, step_keeps_traceInv hf ht e⟩

/-- Settles O46: the history is whole transactions and then a command in progress, and both have the property. -/
theorem everyReadFollowsItsWriteAndDelay : Obligations.EveryReadFollowsItsWriteAndDelay := by
  intro s h
  obtain ⟨hf, done, hw, hh⟩ := h.framed_traceInv
  rw [hh]
  exact hf.readsSettled_partialTrace hw.readsSettled

end Sys2Proof.Machine
end

section
/-! PROOFS. The history records what the output ports ask for (20_memory.md R51, R62). -/

namespace Sys2Proof.Machine

/-! ### The bytes on `t_wdata` -/

/-- Byte `k` of `t_wdata` is byte `k` of TX as the wire shows it (20_memory.md R51). -/
theorem wdata_byte (s : State) (k : Fin 6) : s.wdata.extractLsb' (8 * k) 8 = s.wireByte k := by
  have h : s.wdata.extractLsb' (8 * k) 8 = BitVec.extractLsb' (8 * k) 8 (s.wireByte 5 ++ s.wireByte 4 ++ s.wireByte 3 ++
      s.wireByte 2 ++ s.wireByte 1 ++ s.wireByte 0) := rfl
  rw [h]
  fin_cases k <;> simp only [BitVec.extractLsb'_append_eq_ite] <;> simp

/-- Below TXLEN the wire shows the bytes of the frame. -/
theorem wdata_byte_of_frame {s : State} {k : Nat} {b : Byte} (h : s.frame[k]? = some b) :
    s.wdata.extractLsb' (8 * k) 8 = b := by
  obtain ⟨hk, hb⟩ := List.getElem?_eq_some_iff.1 h
  simp only [State.frame, List.length_take, Vector.length_toList, lt_min_iff] at hk
  obtain ⟨hlen, h6⟩ := hk
  rw [wdata_byte s ⟨k, h6⟩, State.wireByte, if_pos hlen, ← hb]
  simp [State.frame]

/-- At TXLEN and above the wire shows zero. -/
theorem wdata_byte_of_le {s : State} {k : Nat} (hlen : s.txlen.toNat ≤ k) (h6 : k < 6) :
    s.wdata.extractLsb' (8 * k) 8 = 0#8 := by
  rw [wdata_byte s ⟨k, h6⟩, State.wireByte, if_neg (Nat.not_lt.2 hlen)]

/-- The frame that a command sends has TXLEN bytes. -/
theorem State.holds.length_frame {s : State} {i : Instr} (h : s.holds i) : s.frame.length = s.txlen.toNat := by
  simpa [State.frame] using h.txlen_le

/-! ### Requests -/

/-- A step is an issue step of phase `p`. -/
theorem issuesIn_iff {s : State} {p : BitVec 3} : s.issuesIn p = true ↔ s.phase = p ∧ s.pend = false := by
  simp [State.issuesIn]

/-- The transport is asked for a write exactly in the issue step of WRITE. -/
theorem outputs_write_iff (s : State) :
    s.outputs.tReq = true ∧ s.outputs.tRw = some false ↔ s.phase = Phase.write ∧ s.pend = false := by
  rw [← issuesIn_iff]
  cases h : s.issuesIn Phase.write <;> cases k : s.issuesIn Phase.read <;> simp [State.outputs, h, k]

/-- The transport is asked for a read exactly in the issue step of READ. -/
theorem outputs_read_iff (s : State) :
    s.outputs.tReq = true ∧ s.outputs.tRw = some true ↔ s.phase = Phase.read ∧ s.pend = false := by
  rw [← issuesIn_iff]
  cases h : s.issuesIn Phase.write with
  | false => cases k : s.issuesIn Phase.read <;> simp [State.outputs, h, k]
  | true =>
    obtain ⟨hs, _⟩ := issuesIn_iff.1 h
    simp [State.outputs, State.issuesIn, hs]

/-- The delay agent is asked exactly in the issue step of DELAY. -/
theorem outputs_delay_iff (s : State) : s.outputs.dReq = true ↔ s.phase = Phase.delay ∧ s.pend = false :=
  issuesIn_iff

/-- When no agent is asked, the step is no phase's issue step. -/
theorem phaseRequest_of_silent {s : State} (ht : s.outputs.tReq = false) (hd : s.outputs.dReq = false)
    (hp : s.pend = false) : s.phaseRequest = [] := by
  have hw : ¬ s.phase = Phase.write := fun h => by simp [State.outputs, State.issuesIn, h, hp] at ht
  have hr : ¬ s.phase = Phase.read := fun h => by simp [State.outputs, State.issuesIn, h, hp] at ht
  have hdl : ¬ s.phase = Phase.delay := fun h => by simp [State.outputs, State.issuesIn, h, hp] at hd
  simp [State.phaseRequest, hw, hr, hdl]

/-- A step appends to the history the request of the phase, in its issue step (20_memory.md R62). -/
theorem step_hist {s t : State} (h : step s = .next t) :
    t.hist = s.hist ++ (if s.pend = false then s.phaseRequest else []) := by
  rcases step_cases h with ⟨_, rfl⟩ | ⟨hs, _, _, _, rfl⟩ | ⟨hs, _, _, rfl⟩ | ⟨hs, _, rfl⟩
  · exact advance_hist s
  all_goals simp [State.phaseRequest, hs]

/-- Settles O41: the ports tell which phase issues, the history takes that phase's request, and `t_wdata` carries the
frame byte by byte. -/
theorem historyRecordsTheRequestOnThePorts : Obligations.HistoryRecordsTheRequestOnThePorts := by
  intro s t hi h
  rw [step_hist h]
  refine ⟨fun hreq hrw => ?_, fun hreq hrw => ?_, fun hreq => ?_, fun ht hd => ?_⟩
  · obtain ⟨hs, hp⟩ := (outputs_write_iff s).1 ⟨hreq, hrw⟩
    obtain ⟨i, hh⟩ := hi.busy_holds (by simp [hs])
    have hw : s.issuesIn Phase.write = true := issuesIn_iff.2 ⟨hs, hp⟩
    exact ⟨s.frame, s.txlen, s.wdata, if_pos hw, if_pos hw, by simp [State.phaseRequest, State.outputs, hs, hp],
      hh.length_frame, fun k b => wdata_byte_of_frame, fun k => wdata_byte_of_le⟩
  · obtain ⟨hs, hp⟩ := (outputs_read_iff s).1 ⟨hreq, hrw⟩
    exact ⟨5#3, by simp [State.outputs, State.issuesIn, hs, hp], by simp [State.phaseRequest, State.outputs, hs, hp]⟩
  · obtain ⟨hs, hp⟩ := (outputs_delay_iff s).1 hreq
    simp [State.phaseRequest, State.outputs, hs, hp]
  · simpa using phaseRequest_of_silent ht hd

end Sys2Proof.Machine
end

section
/-! PROOFS. A command in progress ends while both agents answer (20_memory.md R55). -/

namespace Sys2Proof.Machine

/-- PHASE holds a value that a rule writes, and a command is in progress (10_state.md R27). -/
abbrev State.working (s : State) : Prop := s.phase ≠ Phase.idle ∧ s.phase ≤ Phase.check

/-- How many steps a command in progress still takes when its write succeeds and every answer comes at once: two for
each of WRITE, DELAY and READ, of which an outstanding request leaves one, and one for CHECK. -/
def State.stepsLeft (s : State) : Nat :=
  if s.phase = Phase.check then 1 else 2 * (4 - s.phase.toNat) + (if s.pend then 0 else 1)

/-- The four phases of a command in progress. -/
theorem State.working.phase_cases {s : State} (h : s.working) :
    s.phase = Phase.write ∨ s.phase = Phase.delay ∨ s.phase = Phase.read ∨ s.phase = Phase.check := by
  revert h
  unfold State.working
  generalize s.phase = p
  revert p
  decide

/-- A command in progress has a step left, and no more than seven. -/
theorem stepsLeft_bounds {s : State} (h : s.working) : 0 < s.stepsLeft ∧ s.stepsLeft ≤ 7 := by
  rcases h.phase_cases with e | e | e | e <;> cases p : s.pend <;> simp [State.stepsLeft, e, p]

/-- When both agents answer, a sequencer step ends the command or leaves it one step less. -/
theorem advance_progress {s : State} (h : s.working) (ht : s.port.tDone = true) (hd : s.port.dDone = true) :
    ((advance s).phase = Phase.idle ∧ (advance s).done = true) ∨
      ((advance s).working ∧ (advance s).stepsLeft + 1 = s.stepsLeft) := by
  rcases advance_kinds s with ⟨ha, p, _, _, g⟩ | ⟨ha, p, _, g⟩ | ⟨_, hi, hdone, _⟩ | ⟨hc, hu, _⟩
  · rcases ha with e | e | e <;> exact .inr (by simp [g, State.working, State.stepsLeft, e, p])
  · rcases ha with e | e | e <;> exact .inr (by simp [g, State.working, State.stepsLeft, e, p])
  · exact .inl ⟨hi, hdone⟩
  · have ha : s.asking := by simpa [hc] using h.phase_cases
    rcases (hu ha).2 with ⟨_, k⟩ | ⟨_, k⟩
    · simp [ht] at k
    · simp [hd] at k

/-- Agents that answer in each of the next `k + 1` steps answer in this one, and in each of `k` after it. -/
theorem State.responsive.step {s : State} {k : Nat} (h : s.responsive (k + 1)) :
    (s.port.tDone = true ∧ s.port.dDone = true) ∧ (advance s).tick.responsive k := by
  obtain ⟨hlen, hp⟩ := h
  obtain ⟨_, henv⟩ := advance_ports s
  refine ⟨hp _ (by simp), ?_⟩
  rw [State.responsive, State.tick_port, State.tick_env, henv]
  cases he : s.env with
  | nil =>
    obtain rfl : k = 0 := by simpa [he] using hlen
    simp
  | cons p e => exact ⟨by simpa [he] using hlen, fun q hq => hp q (by simpa [he] using .inr hq)⟩

/-- Within the steps that it has left, a command in progress ends, if both agents answer in each of them. -/
theorem run_finishes (n : Nat) : ∀ s : State, s.working → s.stepsLeft ≤ n → s.responsive n →
    ∃ k t, k ≤ n ∧ Host.Core.run Sys2Proof.core k s = .next t ∧ t.busy = false ∧ t.done = true := by
  induction n with
  | zero => exact fun s h hn _ => absurd (stepsLeft_bounds h).1 (by omega)
  | succ n ih =>
    intro s h hn hr
    obtain ⟨⟨ht, hd⟩, hr'⟩ := hr.step
    have hs : step s = .next (advance s).tick := step_busy h.1
    rcases advance_progress h ht hd with ⟨hidle, hdone⟩ | ⟨hw, hleft⟩
    · exact ⟨1, (advance s).tick, by omega, (run_succ 0 hs).trans (run_zero _), by simp [State.busy, hidle], hdone⟩
    · obtain ⟨k, t, hk, hrun, hend⟩ := ih (advance s).tick hw (show (advance s).stepsLeft ≤ n by omega) hr'
      exact ⟨k + 1, t, by omega, (run_succ k hs).trans hrun, hend⟩

/-- Settles O53: of the register invariant only the values of PHASE are used. -/
theorem answeredEngineFinishes : Obligations.AnsweredEngineFinishes := by
  intro s hi hb hr
  have hw : s.working := ⟨by simpa [State.busy] using hb, hi.phase_legal⟩
  exact run_finishes 7 s hw (stepsLeft_bounds hw).2 hr

end Sys2Proof.Machine
end

section
/-! PROOFS. The statements about the encoding (30_encoding.md): command words and the rows of the mask and match table,
what a command latches, the frames it sends, the raw value of a reply, and the settle delay of each read command. -/

namespace Sys2Proof

/-! ### Decoding and encoding are inverse -/

/-- The decoder reads every command back from its word (30_encoding.md R82). -/
@[simp] theorem decode_encode (i : Instr) : decode (encode i) = .ok i := by
  rw [decode_ok_cases]
  cases i <;> simp [encode]

/-- Of a 32-bit row of the opcode table the decoder sees the whole word. -/
@[simp] theorem tableWord_toNat (w : Word) : tableWord 32 w.toNat = w := by
  rw [tableWord, Nat.mod_eq_of_lt w.isLt, BitVec.ofNat_toNat, BitVec.setWidth_eq]

/-- Settles O3: the fields of a packed word are the values it was packed from. -/
theorem decodeOfEncodeIsTheCommand : Obligations.DecodeOfEncodeIsTheCommand := by
  intro i _
  exact ⟨decode_encode i, by rw [decodeTableWord, tableWord_toNat, decode_encode]; rfl⟩

/-- A word whose Z is zero is packed from its other fields. -/
theorem packWord_of_fieldZ {w : Word} (hz : fieldZ w = 0#5) : packWord (fieldDly w) (fieldA w) (fieldOp w) = w := by
  rw [packWord, ← hz, packWord_fields]

/-- Settles O4: the decoder fixes every field that the command does not carry. -/
theorem encodeOfDecodeIsTheWord : Obligations.EncodeOfDecodeIsTheWord := by
  intro w i h
  obtain ⟨hz, hrow⟩ := (decode_ok_cases w i).1 h
  have hw := packWord_of_fieldZ hz
  rcases hrow with ⟨ho, rfl⟩ | ⟨ho, ha, hd, rfl⟩ | ⟨ho, ha, hd, rfl⟩ | ⟨ho, ha, hd, rfl⟩ | ⟨ho, hd, rfl⟩
  · rwa [ho] at hw
  · rwa [ho, ha, hd] at hw
  · rwa [ho, ha, hd] at hw
  · rwa [ho, ha, hd] at hw
  · rwa [ho, hd] at hw

/-! ### The mask and match table -/

/-- A word decodes to a command exactly when it matches that command's row of 30_encoding.md R83. -/
theorem decode_ok_iff_row (w : Word) (i : Instr) : decode w = .ok i ↔
    (w &&& 0x000000FF#32 = 0x00000001#32 ∧ i = .rdreg (fieldA w) (fieldDly w)) ∨
      (w &&& 0xFFFFFFFF#32 = 0x00000002#32 ∧ i = .getver) ∨
      (w &&& 0xFFFFFFFF#32 = 0x00000003#32 ∧ i = .getres) ∨
      (w &&& 0xFFFFFFFF#32 = 0x00000004#32 ∧ i = .gettvoc) ∨
      (w &&& 0xFFFF00FF#32 = 0x00000005#32 ∧ i = .setaddr (fieldA w)) := by
  have hver : w &&& 0xFFFFFFFF#32 = 0x00000002#32 ↔ _ := whole_match w 2#3
  have hres : w &&& 0xFFFFFFFF#32 = 0x00000003#32 ↔ _ := whole_match w 3#3
  have htvoc : w &&& 0xFFFFFFFF#32 = 0x00000004#32 ↔ _ := whole_match w 4#3
  rw [decode_ok_cases, low_byte_match, hver, hres, htvoc, all_but_a_match]
  by_cases hz : fieldZ w = 0#5
  · simp only [hz, true_and, and_assoc, and_left_comm]
  · simp only [hz, false_and, and_false, or_false]

/-- The words of `legalWord` are those that match a row, whose masks and patterns are written out. -/
theorem legalWord_iff (w : Word) : legalWord w = true ↔
    w &&& 0x000000FF#32 = 0x00000001#32 ∨ w &&& 0xFFFFFFFF#32 = 0x00000002#32 ∨
      w &&& 0xFFFFFFFF#32 = 0x00000003#32 ∨ w &&& 0xFFFFFFFF#32 = 0x00000004#32 ∨
      w &&& 0xFFFF00FF#32 = 0x00000005#32 := by
  simp only [legalWord, commandTable, CommandRow.accepts, List.any_cons, List.any_nil, Bool.or_false, Bool.or_eq_true,
    beq_iff_eq]

/-- The legal words are those that decode. -/
theorem legalWord_iff_decode (w : Word) : legalWord w = true ↔ ∃ i, decode w = .ok i := by
  simp only [legalWord_iff, decode_ok_iff_row, exists_or, exists_and_left, exists_eq, and_true]

/-- Two rows that accept one word agree on every bit that both fix. -/
theorem CommandRow.disjoint_eq_false {r q : CommandRow} {w : Word} (hr : r.accepts w = true)
    (hq : q.accepts w = true) : r.disjoint q = false := by
  have er : w &&& r.mask = r.pattern := by simpa [CommandRow.accepts] using hr
  have eq : w &&& q.mask = q.pattern := by simpa [CommandRow.accepts] using hq
  rw [CommandRow.disjoint, ← er, ← eq, BitVec.and_assoc, BitVec.and_assoc, BitVec.and_comm r.mask]
  simp

/-- Any two different rows of the table fix some bit differently. -/
theorem commandTable_disjoint : ∀ r ∈ commandTable, ∀ q ∈ commandTable, r = q ∨ r.disjoint q = true := by decide

/-- Settles O5: each row fixes the fields that the decoder asks for, and two rows differ in a bit that both fix. -/
theorem wordDecodesExactlyWhenARowMatches : Obligations.WordDecodesExactlyWhenARowMatches := by
  refine ⟨decode_ok_iff_row, legalWord_iff_decode, rfl, fun w r q hr hq ar aq => ?_⟩
  refine (commandTable_disjoint r hr q hq).resolve_right fun hd => ?_
  rw [CommandRow.disjoint_eq_false ar aq] at hd
  exact Bool.false_ne_true hd

/-! ### Illegal words -/

/-- The decoder refuses the words that it decodes to no command. -/
theorem decode_error_iff (w : Word) : (∃ r, decode w = .error r) ↔ ¬ ∃ i, decode w = .ok i := by
  cases decode w <;> simp

/-- The legal words, by their fields. -/
theorem exists_decode_iff (w : Word) : (∃ i, decode w = .ok i) ↔
    fieldZ w = 0#5 ∧ (fieldOp w = 1#3 ∨
      ((fieldOp w = 2#3 ∨ fieldOp w = 3#3 ∨ fieldOp w = 4#3) ∧ fieldA w = 0#8 ∧ fieldDly w = 0#16) ∨
      (fieldOp w = 5#3 ∧ fieldDly w = 0#16)) := by
  simp only [decode_ok_cases, exists_and_left, exists_or, exists_eq, and_true, or_and_right, or_assoc]

/-- The values of OP: the three reserved ones and the five commands (30_encoding.md R81). -/
theorem op_values (o : BitVec 3) : (o = 0#3 ∨ o = 6#3 ∨ o = 7#3) ∨
    o = 1#3 ∨ (o = 2#3 ∨ o = 3#3 ∨ o = 4#3) ∨ o = 5#3 := by
  revert o; decide

/-- Settles O6: for each value of OP the other fields decide. -/
theorem illegalWordsAreTheListedClasses : Obligations.IllegalWordsAreTheListedClasses := by
  intro w
  rw [decode_error_iff, exists_decode_iff]
  change ¬ _ ↔ (fieldOp w = 0#3 ∨ fieldOp w = 6#3 ∨ fieldOp w = 7#3) ∨ fieldZ w ≠ 0#5 ∨
    ((fieldOp w = 2#3 ∨ fieldOp w = 3#3 ∨ fieldOp w = 4#3) ∧ (fieldA w ≠ 0#8 ∨ fieldDly w ≠ 0#16)) ∨
    (fieldOp w = 5#3 ∧ fieldDly w ≠ 0#16)
  rcases op_values (fieldOp w) with hreserved | hrdreg | hbare | hsetaddr
  · rcases hreserved with ho | ho | ho <;> simp [ho]
  · simp [hrdreg]
  · rcases hbare with ho | ho | ho <;> simp [ho, not_and_or, -not_and]
  · simp [hsetaddr, not_and_or, -not_and]

end Sys2Proof

namespace Sys2Proof.Machine

/-! ### What a command latches -/

/-- Settles O7: by the value of OP, the decoder names the command, and `latch` its row of the table. -/
theorem legalWordLatchesItsOperands : Obligations.LegalWordLatchesItsOperands := by
  refine ⟨fun reg dly => ⟨_, decode_encode (.rdreg reg dly)⟩, fun w i h => ?_⟩
  change (fieldOp w = 1#3 → latch i = ⟨1#3, fieldA w, fieldDly w, 0x00#8⟩) ∧
    (fieldOp w = 2#3 → _) ∧ (fieldOp w = 3#3 → _) ∧ (fieldOp w = 4#3 → _) ∧
    (fieldOp w = 5#3 → latch i = ⟨5#3, 0x21#8, 0x0000#16, fieldA w⟩)
  obtain ⟨_, hrow⟩ := (decode_ok_cases w i).1 h
  rcases hrow with ⟨ho, rfl⟩ | ⟨ho, _, _, rfl⟩ | ⟨ho, _, _, rfl⟩ | ⟨ho, _, _, rfl⟩ | ⟨ho, _, rfl⟩ <;>
    simp [ho, latch]

/-! ### The frames -/

/-- A byte and its complement add up to 255 (43_address_change.md R153). -/
theorem toNat_add_toNat_not (n : Byte) : n.toNat + (~~~n).toNat = 255 := by
  rw [BitVec.toNat_not]; omega

/-- A complement is the exclusive or with all ones (30_encoding.md R89). -/
theorem not_eq_xor_ones (n : Byte) : ~~~n = n ^^^ 0xFF#8 := (BitVec.xor_allOnes).symm

/-- Settles O8: the frame holds the complement, which is the exclusive or with all ones. -/
theorem addressFrameDuplicatesAndComplements : Obligations.AddressFrameDuplicatesAndComplements := by
  refine ⟨fun n => ⟨?_, rfl, rfl, toNat_add_toNat_not n, ?_⟩, by decide⟩
  · rw [← not_eq_xor_ones]; rfl
  · change n ^^^ ~~~n = 0xFF#8
    rw [not_eq_xor_ones, ← BitVec.xor_assoc, BitVec.xor_self, BitVec.zero_xor]

/-- The OP register holds the opcode of the command that the registers hold. -/
theorem State.holds.op_eq {s : State} {i : Instr} (h : s.holds i) : s.op = (latch i).op := by
  rw [← h.1, latched_op]

/-- The NEWA register holds the new address of the command that the registers hold. -/
theorem State.holds.newa_eq {s : State} {i : Instr} (h : s.holds i) : s.newa = (latch i).newa := by
  rw [← h.1, latched_newa]

/-- Settles O9: whether the frame is one byte or six depends on the latched opcode alone. -/
theorem frameHeldIsTheCommandsFrame : Obligations.FrameHeldIsTheCommandsFrame := by
  intro s i h
  refine ⟨fun hr => h.frame_of_read ?_, fun n hi => ?_⟩
  · rw [h.op_eq]; exact (isRead_iff i).1 hr
  · subst hi
    have hn : s.newa = n := h.newa_eq
    rw [← hn]
    exact h.frame_of_setaddr h.op_eq

/-! ### The reply -/

/-- A concatenation counts its first part above the second. -/
theorem toNat_append_eq_add {m n : Nat} (x : BitVec m) (y : BitVec n) :
    (x ++ y).toNat = x.toNat * 2 ^ n + y.toNat := by
  rw [BitVec.toNat_append, ← Nat.shiftLeft_add_eq_or_of_lt y.isLt, Nat.shiftLeft_eq]

/-- The value of four bytes, the first the most significant (20_memory.md R57). -/
theorem be32_toNat (d0 d1 d2 d3 : Byte) :
    (be32 d0 d1 d2 d3).toNat = d0.toNat * 2 ^ 24 + d1.toNat * 2 ^ 16 + d2.toNat * 2 ^ 8 + d3.toNat := by
  change (d0 ++ d1 ++ d2 ++ d3 : BitVec (8 + 8 + 8 + 8)).toNat = _
  simp only [toNat_append_eq_add]
  omega

/-- Settles O10: a concatenation of bytes is their sum by place value, and each reply byte is cut out at its place. -/
theorem rawValueIsBigEndian : Obligations.RawValueIsBigEndian := by
  refine ⟨fun rx => be32_toNat _ _ _ _, fun d i => ?_⟩
  fin_cases i <;> rfl

/-! ### The settle delay -/

/-- In DELAY, with no request outstanding, the command in progress requests the delay that it latches, and REG is the
register id that it latches (41_transaction.md R125). -/
theorem exec_requests_delay {s : State} {i : Instr} (hs : s.phase = Phase.delay) (hp : s.pend = false)
    (hl : s.latched = latch i) : s.reg = (latch i).reg ∧
      exec i s = .next { s with hist := s.hist ++ [.delay (latch i).dly], pend := true } := by
  rw [exec_busy (by simp [hs]) hl, advance_of_delay hs, delayPhase, if_pos hp, ← hl]
  exact ⟨rfl, rfl⟩

/-- A careful host's read command latches a pair of the table of 30_encoding.md R90. -/
theorem careful_read_pairs {i : Instr} (hr : i.isRead = true) (hc : i.careful = true) :
    ((latch i).reg = 0x00#8 ∧ (latch i).dly = 1000#16) ∨ ((latch i).reg = 0x11#8 ∧ (latch i).dly = 30#16) ∨
      ((latch i).reg = 0x20#8 ∧ (latch i).dly = 1000#16) := by
  cases i with
  | rdreg reg dly => simpa [Instr.careful, latch, or_assoc] using hc
  | getver => simp [latch]
  | getres => simp [latch]
  | gettvoc => simp [latch]
  | setaddr n => simp [Instr.isRead] at hr

/-- Settles O58: the delay requested is the one latched, and `latch` gives each command's. -/
theorem carefulReadsRequestTheTablesDelay : Obligations.CarefulReadsRequestTheTablesDelay := by
  intro s hs hp
  refine ⟨exec_requests_delay hs hp, exec_requests_delay hs hp, exec_requests_delay hs hp,
    fun reg dly => exec_requests_delay hs hp, fun i hr hc hl => ?_⟩
  obtain ⟨hreg, he⟩ := exec_requests_delay hs hp hl
  exact ⟨he, by rw [hreg]; exact careful_read_pairs hr hc⟩

end Sys2Proof.Machine
end

section
/-! PROOFS. The statements about the checksum (40_checksum.md): one round, the fold over a byte sequence, and what the
frame check accepts and detects. -/

namespace Sys2Proof.Machine

/-! ### One round -/

/-- A round tests whether the accumulator is at least 128 (40_checksum.md R111). -/
theorem getLsbD_seven_eq_decide (a : Byte) : a.getLsbD 7 = decide (128 ≤ a.toNat) := BitVec.msb_eq_decide a

/-- The round on a byte whose high bit is set (40_checksum.md R111). -/
theorem crc8Round_of_high {a : Byte} (h : a.getLsbD 7 = true) : crc8Round a = (a <<< 1) ^^^ Config.crcPoly := if_pos h

/-- The round on a byte whose high bit is clear (40_checksum.md R111). -/
theorem crc8Round_of_low {a : Byte} (h : a.getLsbD 7 = false) : crc8Round a = a <<< 1 :=
  if_neg (h ▸ Bool.false_ne_true)

/-- A shift by one doubles the byte and drops the carry. -/
theorem toNat_shiftLeft_one (a : Byte) : (a <<< 1).toNat = 2 * a.toNat % 256 := by
  rw [BitVec.toNat_shiftLeft, Nat.shiftLeft_eq, Nat.mul_comm]

/-- Settles O12: the high bit says whether the byte is at least 128, and the shift doubles. -/
theorem checksumRoundShiftsAndReduces : Obligations.ChecksumRoundShiftsAndReduces := by
  refine ⟨fun a => ?_, by decide⟩
  cases h : a.getLsbD 7
  case true =>
    have hge : 128 ≤ a.toNat := of_decide_eq_true (getLsbD_seven_eq_decide a ▸ h)
    rw [crc8Round_of_high h, if_pos hge, BitVec.toNat_xor, toNat_shiftLeft_one]
    rfl
  case false =>
    have hlt : ¬ 128 ≤ a.toNat := of_decide_eq_false (getLsbD_seven_eq_decide a ▸ h)
    rw [crc8Round_of_low h, if_neg hlt, toNat_shiftLeft_one]

/-- The low bit after a round is the high bit before it: the shift leaves a zero there and the polynomial is odd. -/
theorem crc8Round_low_bit (a : Byte) : (crc8Round a).getLsbD 0 = a.getLsbD 7 := by
  cases h : a.getLsbD 7
  · simp [crc8Round_of_low h]
  · simp [crc8Round_of_high h]

/-- A byte is what its shift and its high bit say. -/
theorem eq_of_shiftLeft_one_eq {a b : Byte} (hs : a <<< 1 = b <<< 1) (h : a.getLsbD 7 = b.getLsbD 7) : a = b := by
  have hn : 2 * a.toNat % 256 = 2 * b.toNat % 256 := by rw [← toNat_shiftLeft_one, hs, toNat_shiftLeft_one]
  rw [getLsbD_seven_eq_decide, getLsbD_seven_eq_decide, decide_eq_decide] at h
  apply BitVec.eq_of_toNat_eq
  omega

/-- A round loses nothing: its low bit tells whether the polynomial was added, and so undoes it. -/
theorem crc8Round_injective : Function.Injective crc8Round := by
  intro a b hab
  have htop : a.getLsbD 7 = b.getLsbD 7 := by rw [← crc8Round_low_bit, hab, crc8Round_low_bit]
  refine eq_of_shiftLeft_one_eq ?_ htop
  cases h : b.getLsbD 7
  case false => rwa [crc8Round_of_low (htop.trans h), crc8Round_of_low h] at hab
  case true =>
    rw [crc8Round_of_high (htop.trans h), crc8Round_of_high h] at hab
    exact (BitVec.xor_left_inj _).1 hab

/-! ### One byte -/

/-- The model's `k` rounds are the round iterated. -/
theorem crc8Rounds_eq_iterate (k : Nat) (a : Byte) : crc8Rounds k a = crc8Round^[k] a := by
  induction k generalizing a with
  | zero => rfl
  | succ k ih => exact ih (crc8Round a)

/-- One byte is one exclusive or and then eight rounds (40_checksum.md R112). -/
theorem crc8Byte_eq_iterate (a b : Byte) : crc8Byte a b = crc8Round^[8] (a ^^^ b) := crc8Rounds_eq_iterate 8 _

/-- Different bytes lead one accumulator to different values. -/
theorem crc8Byte_right_injective (a : Byte) : Function.Injective (crc8Byte a) := by
  intro b c h
  rw [crc8Byte_eq_iterate, crc8Byte_eq_iterate] at h
  exact (BitVec.xor_right_inj _).1 (crc8Round_injective.iterate 8 h)

/-- One byte leads different accumulators to different values. -/
theorem crc8Byte_left_injective (b : Byte) : Function.Injective (crc8Byte · b) := by
  intro a c h
  simp only [crc8Byte_eq_iterate] at h
  exact (BitVec.xor_left_inj _).1 (crc8Round_injective.iterate 8 h)

/-- A byte equal to the accumulator clears it, and no round sets it again. -/
@[simp] theorem crc8Byte_self (a : Byte) : crc8Byte a a = 0#8 := by
  rw [crc8Byte_eq_iterate, BitVec.xor_self]
  exact Function.iterate_fixed (by decide) 8

/-- Only the byte equal to the accumulator clears it. -/
theorem crc8Byte_eq_zero_iff {a b : Byte} : crc8Byte a b = 0#8 ↔ b = a := by
  rw [← crc8Byte_self a]
  exact (crc8Byte_right_injective a).eq_iff

/-! ### A sequence -/

/-- The last byte is folded into the checksum of the rest (40_checksum.md R113). -/
theorem crc8_concat (s : List Byte) (b : Byte) : crc8 (s ++ [b]) = crc8Byte (crc8 s) b := List.foldl_concat ..

/-- The bytes that follow keep different accumulators apart. -/
theorem foldl_crc8Byte_injective (s : List Byte) : Function.Injective (s.foldl crc8Byte) := by
  induction s with
  | nil => exact Function.injective_id
  | cons b s ih => exact ih.comp (crc8Byte_left_injective b)

/-- Sequences that differ in one byte have different checksums. -/
theorem crc8_middle_injective (p q : List Byte) : Function.Injective fun b => crc8 (p ++ b :: q) := by
  intro b c h
  simp only [crc8, List.foldl_append, List.foldl_cons] at h
  exact crc8Byte_right_injective _ (foldl_crc8Byte_injective q h)

/-- A byte put in place of another changes the checksum. -/
theorem crc8_set_ne {s : List Byte} {i : Nat} {b : Byte} (hi : i < s.length) (hb : b ≠ s[i]) :
    crc8 (s.set i b) ≠ crc8 s := by
  have hs : s = s.take i ++ s[i] :: s.drop (i + 1) := by simp
  rw [List.set_eq_take_append_cons_drop, if_pos hi]
  conv_rhs => rw [hs]
  exact (crc8_middle_injective _ _).ne hb

/-- Settles O13: the rounds are the round iterated, the fold takes the last byte last, and the examples run. -/
theorem checksumFoldsEveryByteInOrder : Obligations.ChecksumFoldsEveryByteInOrder :=
  ⟨crc8Byte_eq_iterate, by decide, by decide, by decide, by decide, fun _ => rfl, rfl, crc8_concat,
    by decide, by decide, by decide, by decide⟩

/-- Settles O15: the checksum, as the last byte, clears the accumulator. -/
theorem checksumOfSequenceWithItsChecksumIsZero : Obligations.ChecksumOfSequenceWithItsChecksumIsZero := by
  intro s
  rw [crc8_concat, crc8Byte_self]

/-! ### A frame -/

/-- The frame check compares the checksum of four bytes with the fifth (40_checksum.md R114). -/
theorem frameOk_iff (rx : Vector Byte 5) : frameOk rx = true ↔ frameChecksum rx = rx[4] := beq_iff_eq

/-- A frame is its first four bytes and then its fifth. -/
theorem frame_toList (rx : Vector Byte 5) : rx.toList = [rx[0], rx[1], rx[2], rx[3]] ++ [rx[4]] := by
  obtain ⟨⟨bytes⟩, hsize⟩ := rx
  match bytes, hsize with
  | [_, _, _, _, _], _ => rfl

/-- A frame is good exactly when the checksum of all its five bytes is zero. -/
theorem frameOk_iff_crc8_eq_zero (rx : Vector Byte 5) : frameOk rx = true ↔ crc8 rx.toList = 0#8 := by
  rw [frameOk_iff, frame_toList, crc8_concat, crc8Byte_eq_zero_iff, eq_comm]
  rfl

/-- Settles O14: the one fifth byte that makes a frame good is the checksum of the other four. -/
theorem frameGoodForExactlyOneChecksum : Obligations.FrameGoodForExactlyOneChecksum := by
  refine ⟨fun rx => ?_, fun d0 d1 d2 d3 => ⟨crc8 [d0, d1, d2, d3], fun x => ?_⟩⟩
  · rw [frame_toList]
    exact frameOk_iff rx
  · rw [frameOk_iff, eq_comm]
    rfl

/-- Settles O16: a frame is good when the checksum of all five bytes is zero, and one changed byte changes it. -/
theorem oneChangedByteIsDetected : Obligations.OneChangedByteIsDetected := by
  intro rx i b hgood hb
  rw [frameOk_iff_crc8_eq_zero] at hgood
  rw [← Bool.not_eq_true, frameOk_iff_crc8_eq_zero, Vector.toList_set, ← hgood]
  exact crc8_set_ne (by simp) hb

end Sys2Proof.Machine
end

section
/-! PROOFS. One step of a command (41_transaction.md R120 to R130): what each rule's step does, for every command in
progress, and which steps leave the state alone. -/

namespace Sys2Proof.Machine

/-! ### The step of each rule -/

section

variable {s : State}

/-- write-issue (41_transaction.md R123). -/
theorem advance_write_issue (h : s.phase = Phase.write) (hp : s.pend = false) :
    advance s = issue (.write s.addr s.frame) s := by
  rw [advance_of_write h]; exact if_pos hp

/-- write-response (41_transaction.md R124). -/
theorem advance_write_response (h : s.phase = Phase.write) (hp : s.pend = true) (ht : s.port.tDone = true) :
    advance s = writeResponse s.port.tOk s := by
  rw [advance_of_write h, writePhase, answer_of_tDone ht]; simp [hp]

/-- delay-issue (41_transaction.md R125). -/
theorem advance_delay_issue (h : s.phase = Phase.delay) (hp : s.pend = false) :
    advance s = issue (.delay s.dly) s := by
  rw [advance_of_delay h]; exact if_pos hp

/-- delay-response (41_transaction.md R126). -/
theorem advance_delay_response (h : s.phase = Phase.delay) (hp : s.pend = true) (hd : s.port.dDone = true) :
    advance s = delayResponse s := by
  simp [advance_of_delay h, delayPhase, hp, hd]

/-- read-issue (41_transaction.md R127). -/
theorem advance_read_issue (h : s.phase = Phase.read) (hp : s.pend = false) :
    advance s = issue (.read s.addr 5) s := by
  rw [advance_of_read h]; exact if_pos hp

/-- read-response (41_transaction.md R128). -/
theorem advance_read_response (h : s.phase = Phase.read) (hp : s.pend = true) (ht : s.port.tDone = true) :
    advance s = readResponse ⟨s.port.tOk, replyBytes s.port.tRdata⟩ s := by
  rw [advance_of_read h, readPhase, answer_of_tDone ht]; simp [hp]

/-- A request without an answer keeps the sequencer waiting (60_exceptions.md R172). -/
theorem advance_unanswered (hp : s.pend = true) (hu : s.unanswered s.port) : advance s = s := by
  rcases hu with ⟨h | h, ht⟩ | ⟨h, hd⟩
  · rw [advance_of_write h, writePhase, answer_of_not_tDone ht]; simp [hp]
  · rw [advance_of_read h, readPhase, answer_of_not_tDone ht]; simp [hp]
  · simp [advance_of_delay h, delayPhase, hp, hd]

/-- A failed write ends the command (41_transaction.md R124). -/
theorem writeResponse_failed : writeResponse false s = raiseError .transport s := rfl

/-- A successful write ends SETADDR and loads ADDR (41_transaction.md R124). -/
theorem writeResponse_of_setaddr (hop : s.op = Op.setaddr) :
    writeResponse true s = complete .none Config.sentinel { s with addr := s.newa } := if_pos hop

/-- A successful write takes a read command to the delay (41_transaction.md R124). -/
theorem writeResponse_of_read (hop : s.op ≠ Op.setaddr) :
    writeResponse true s = { s with pend := false, phase := Phase.delay } := if_neg hop

/-- A failed read ends the command (41_transaction.md R128). -/
theorem readResponse_failed (b : Vector Byte 5) : readResponse ⟨false, b⟩ s = raiseError .transport s := rfl

/-- A successful read takes the bytes to the check (41_transaction.md R128). -/
theorem readResponse_succeeded (b : Vector Byte 5) :
    readResponse ⟨true, b⟩ s = { s with rx := b, pend := false, phase := Phase.check } := rfl

/-- CHECK of a good frame reports its reading (41_transaction.md R129). -/
theorem check_of_good_frame (h : frameOk s.rx = true) :
    check s = complete .none (decodeReading s.op (rawValue s.rx)) s := by
  rcases check_cases s with ⟨_, g⟩ | ⟨k, _⟩
  · exact g
  · simp [h] at k

/-- A command that is not the one in progress is held (assumption log 5). -/
theorem exec_other {i : Instr} (h : s.phase ≠ Phase.idle) (hl : s.latched ≠ latch i) : exec i s = .next s := by
  rw [exec_eq]
  rcases command_cases (latch i) s with ⟨k, _⟩ | ⟨_, k, _⟩ | ⟨_, _, g⟩
  · exact absurd k h
  · exact absurd k hl
  · rw [g]

end

/-! ### Acceptance, rejection and holding -/

/-- Settles O17: an idle engine accepts the word's command, a busy one takes the sequencer's step, as `exec` does. -/
theorem stepRunsTheDecodedCommand : Obligations.StepRunsTheDecodedCommand := by
  refine ⟨fun s i hs hv hd => ?_, fun s i hs hl => ?_, fun i s t h => ?_⟩
  · rw [step_accept hs hv hd, exec_idle i hs]; rfl
  · rw [step_busy hs, exec_busy hs hl]; rfl
  · rw [h]; rfl

/-- An engine made ready is idle, whatever it was doing. -/
theorem State.readied_phase (s : State) : s.readied.phase = Phase.idle := by
  by_cases h : s.phase = Phase.idle <;> simp [State.readied, h]

/-- Making an engine ready keeps ADDR, the history and the inputs to come. -/
theorem State.readied_keeps (s : State) :
    s.readied.addr = s.addr ∧ s.readied.hist = s.hist ∧ s.readied.env = s.env := by
  by_cases h : s.phase = Phase.idle <;> simp [State.readied, h]

/-- Settles O18: the ready engine is idle and the word on its port decodes to the command, so the step accepts it. -/
theorem presentedWordIsAcceptedNext : Obligations.PresentedWordIsAcceptedNext := by
  intro s i
  obtain ⟨haddr, hhist, henv⟩ := s.readied_keeps
  have hs : (s.withFetchWord 32 (encode i).toNat).phase = Phase.idle := s.readied_phase
  have hd : decode (s.withFetchWord 32 (encode i).toNat).port.cmd = .ok i := by
    simp [State.withFetchWord]
  refine ⟨_, step_accept hs rfl hd, rfl, rfl, rfl, rfl, haddr, hhist, ?_, ?_⟩
  · simp [State.withFetchWord, henv]
  · simp [State.withFetchWord, henv]

/-- Settles O19: every clause is a field of the accepted state. -/
theorem idleEngineAcceptsLegalWord : Obligations.IdleEngineAcceptsLegalWord := by
  intro s i hs hv hd
  exact ⟨_, step_accept hs hv hd, rfl, rfl, rfl, rfl, rfl, rfl, rfl, rfl, rfl, rfl, rfl, rfl, rfl, rfl, rfl⟩

/-- Settles O20: `latch` gives each command's values, and its opcode the frame. -/
theorem acceptanceOfEachCommand : Obligations.AcceptanceOfEachCommand :=
  fun _ hs => ⟨fun _ _ => exec_idle _ hs, exec_idle _ hs, exec_idle _ hs, exec_idle _ hs, fun _ => exec_idle _ hs⟩

/-- Settles O21. -/
theorem idleEngineRejectsIllegalWord : Obligations.IdleEngineRejectsIllegalWord :=
  fun _ _ hs hv hd => step_reject hs hv hd

/-- Settles O32. -/
theorem otherCommandIsHeld : Obligations.OtherCommandIsHeld := fun _ _ hs hl => exec_other hs hl

/-! ### The steps of a command in progress -/

/-- Settles O22: the request carries the frame, which is the command's own while the registers hold the command. -/
theorem writeIssueRequestsTheFrame : Obligations.WriteIssueRequestsTheFrame := by
  intro i s h hp hl
  have he : exec i s = .next (issue (.write s.addr s.frame) s) := by
    rw [exec_busy (by simp [h]) hl, advance_write_issue h hp]
  refine ⟨he, fun hh hr => ?_, fun n hh hi => ?_⟩
  · have hreg : s.reg = (latch i).reg := by rw [← hl, latched_reg]
    rw [he, (frameHeldIsTheCommandsFrame s i hh).1 hr, ← hreg]; rfl
  · rw [he, (frameHeldIsTheCommandsFrame s i hh).2 n hi]; rfl

/-- Settles O23. -/
theorem writeResponseEndsOrGoesOn : Obligations.WriteResponseEndsOrGoesOn := by
  intro i s h hp ht hl
  rw [exec_busy (by simp [h]) hl, advance_write_response h hp ht]
  refine ⟨fun ho => ?_, fun ho hop => ?_, fun ho hop => ?_⟩ <;> rw [ho]
  · rw [writeResponse_failed]; rfl
  · rw [writeResponse_of_setaddr hop]
  · rw [writeResponse_of_read hop]

/-- Settles O24. -/
theorem delayIssueRequestsTheDelay : Obligations.DelayIssueRequestsTheDelay := by
  intro i s h hp hl
  rw [exec_busy (by simp [h]) hl, advance_delay_issue h hp]; rfl

/-- Settles O25. -/
theorem delayResponseGoesToRead : Obligations.DelayResponseGoesToRead := by
  intro i s h hp hd hl
  rw [exec_busy (by simp [h]) hl, advance_delay_response h hp hd]; rfl

/-- Settles O26. -/
theorem readIssueRequestsFiveBytes : Obligations.ReadIssueRequestsFiveBytes := by
  intro i s h hp hl
  rw [exec_busy (by simp [h]) hl, advance_read_issue h hp]; rfl

/-- Settles O27. -/
theorem readResponseStoresOrEnds : Obligations.ReadResponseStoresOrEnds := by
  intro i s h hp ht hl
  rw [exec_busy (by simp [h]) hl, advance_read_response h hp ht]
  refine ⟨fun ho => ?_, fun ho => ?_⟩ <;> rw [ho]
  · rw [readResponse_failed]; rfl
  · rw [readResponse_succeeded]; rfl

/-- The command in progress ends in CHECK with the checksum's verdict (41_transaction.md R129). -/
theorem exec_check {s : State} {i : Instr} (h : s.phase = Phase.check) (hl : s.latched = latch i) :
    exec i s = .next (check s) := by
  rw [exec_busy (by simp [h]) hl, advance_of_check h]

/-- Settles O28: the comparison is the frame check. -/
theorem checkStepComparesThenDecodes : Obligations.CheckStepComparesThenDecodes := by
  intro i s h hl
  rw [exec_check h hl]
  refine ⟨fun hne => ?_, fun heq => ?_⟩
  · have hbad : frameOk s.rx = false := by
      rw [← Bool.not_eq_true, frameOk_iff]; exact hne
    rw [check_of_bad_frame hbad]; rfl
  · rw [check_of_good_frame ((frameOk_iff s.rx).2 heq)]; rfl

/-! ### Completion -/

/-- A sequencer step that ends the command raises an error or completes without one (41_transaction.md R130). -/
theorem advance_ends {s : State} (hs : s.phase ≠ Phase.idle) (ht : (advance s).phase = Phase.idle) :
    (∃ e, advance s = raiseError e s) ∨ ∃ v u, advance s = complete .none v u := by
  rcases advance_outcomes s with ⟨h, _, g⟩ | ⟨_, _, _, _, g⟩ | ⟨_, _, _, _, _, g⟩ | ⟨_, _, _, _, _, g⟩ | ⟨h, _, g⟩ |
    ⟨_, _, _, g⟩ | ⟨h, _, g⟩ | ⟨_, _, _, _, g⟩ | ⟨_, _, _, _, g⟩ | ⟨_, _, g⟩ | ⟨_, _, g⟩ | ⟨_, _, _, _, g⟩
  · exact absurd ht (by simp [g, h])
  · exact .inl ⟨_, g⟩
  · exact .inr ⟨_, _, g⟩
  · exact absurd ht (by simp [g])
  · exact absurd ht (by simp [g, h])
  · exact absurd ht (by simp [g])
  · exact absurd ht (by simp [g, h])
  · exact .inl ⟨_, g⟩
  · exact absurd ht (by simp [g])
  · exact .inr ⟨_, _, g⟩
  · exact .inl ⟨_, g⟩
  · exact absurd ht (by simp [g, hs])

/-- Settles O29: a command that ends with an error was ended by raising it, and then VALUE is the sentinel. -/
theorem completionReportsAndClears : Obligations.CompletionReportsAndClears := by
  refine ⟨fun s t hs h ht herr => ?_, fun e v s => ⟨rfl, ⟨rfl, rfl, rfl, rfl, rfl, rfl, rfl, rfl, rfl⟩, rfl⟩⟩
  rw [step_busy hs] at h
  cases h
  rcases advance_ends hs ht with ⟨e, g⟩ | ⟨v, u, g⟩
  · simp [g]
  · simp [g] at herr

/-! ### The result of each read command -/

/-- The raw value of a frame is the number that its four data bytes make (30_encoding.md R87). -/
theorem rawValue_eq_ofNat {rx : Vector Byte 5} {raw : Nat}
    (h : raw = rx[0].toNat * 2 ^ 24 + rx[1].toNat * 2 ^ 16 + rx[2].toNat * 2 ^ 8 + rx[3].toNat) :
    rawValue rx = BitVec.ofNat 32 raw := by
  rw [h, ← be32_toNat, BitVec.ofNat_toNat, BitVec.setWidth_eq]; rfl

/-- RDREG returns the raw value (42_decoder.md R140). -/
theorem decodeReading_rdreg (raw : Word) : decodeReading Op.rdreg raw = raw := rfl

/-- GETVER returns the raw value (42_decoder.md R141). -/
theorem decodeReading_getver (raw : Word) : decodeReading Op.getver raw = raw := rfl

/-- GETRES multiplies by 100, modulo 2^32 (42_decoder.md R142). -/
theorem decodeReading_getres (n : Nat) : decodeReading Op.getres (BitVec.ofNat 32 n) = BitVec.ofNat 32 (n * 100) :=
  (BitVec.ofNat_mul ..).symm

/-- GETTVOC keeps the low 24 bits (42_decoder.md R143). -/
theorem decodeReading_gettvoc (n : Nat) :
    decodeReading Op.gettvoc (BitVec.ofNat 32 n) = BitVec.ofNat 32 (n % 2 ^ 24) := by
  change BitVec.ofNat 32 n &&& BitVec.ofNat 32 (2 ^ 24 - 1) = _
  rw [← BitVec.ofNat_and, Nat.and_two_pow_sub_one_eq_mod]

/-- In CHECK with a good frame the command in progress reports the decoding of its raw value, and the engine is idle
(41_transaction.md R129, R130). -/
theorem exec_check_of_good_frame {s : State} {i : Instr} {v : Word} (h : s.phase = Phase.check)
    (hgood : frameOk s.rx = true) (hl : s.latched = latch i) (hv : decodeReading (latch i).op (rawValue s.rx) = v) :
    exec i s = .next { s.cleared with value := v, done := true, err := 0b00#2 } := by
  rw [exec_check h hl, check_of_good_frame hgood, ← latched_op, hl, hv]; rfl

/-- Settles O30: CHECK reports the decoding of the raw value, and each opcode has its own decoding. -/
theorem readCommandsReturnTheirReading : Obligations.ReadCommandsReturnTheirReading := by
  intro s raw h hgood hraw
  have hv := rawValue_eq_ofNat hraw
  refine ⟨fun reg dly hl => exec_check_of_good_frame h hgood hl ?_, fun hl => exec_check_of_good_frame h hgood hl ?_,
    fun hl => exec_check_of_good_frame h hgood hl ?_, fun hl => exec_check_of_good_frame h hgood hl ?_⟩ <;> rw [hv]
  · exact decodeReading_rdreg _
  · exact decodeReading_getver _
  · exact decodeReading_getres raw
  · exact decodeReading_gettvoc raw

/-! ### The input ports -/

/-- The input ports show `p` now and `e` in the steps after it. -/
def State.withPorts (p : Inputs) (e : List Inputs) (s : State) : State := { s with port := p, env := e }

section

variable (p : Inputs) (e : List Inputs) (s : State)

@[simp] theorem State.withPorts_phase : (s.withPorts p e).phase = s.phase := rfl
@[simp] theorem State.withPorts_pend : (s.withPorts p e).pend = s.pend := rfl
@[simp] theorem State.withPorts_port : (s.withPorts p e).port = p := rfl
@[simp] theorem State.withPorts_env : (s.withPorts p e).env = e := rfl

/-! A step that an answer enables takes the answer's data as arguments and reads no port besides; an issue step and
CHECK read none (41_transaction.md R123 to R130). -/

theorem writeResponse_withPorts (ok : Bool) :
    writeResponse ok (s.withPorts p e) = (writeResponse ok s).withPorts p e := by
  cases ok with
  | false => rfl
  | true =>
    by_cases hop : s.op = Op.setaddr
    · rw [writeResponse_of_setaddr (s := s.withPorts p e) hop, writeResponse_of_setaddr hop]; rfl
    · rw [writeResponse_of_read (s := s.withPorts p e) hop, writeResponse_of_read hop]; rfl

theorem readResponse_withPorts (a : Answer) :
    readResponse a (s.withPorts p e) = (readResponse a s).withPorts p e := by
  simp only [readResponse]
  split_ifs <;> rfl

theorem check_withPorts : check (s.withPorts p e) = (check s).withPorts p e := by
  rcases check_cases s with ⟨h, g⟩ | ⟨h, g⟩ <;> rw [g]
  · rw [check_of_good_frame (s := s.withPorts p e) h]; rfl
  · rw [check_of_bad_frame (s := s.withPorts p e) h]; rfl

end

section

variable {p : Inputs} {e : List Inputs} {s : State}

theorem writePhase_withPorts (ha : p.answer = s.port.answer) :
    writePhase (s.withPorts p e) = (writePhase s).withPorts p e := by
  have hissue : writeIssue (s.withPorts p e) = (writeIssue s).withPorts p e := rfl
  cases hans : s.port.answer <;>
    simp only [writePhase, State.withPorts_pend, State.withPorts_port, ha, hans, hissue, writeResponse_withPorts,
      apply_ite (State.withPorts p e)]

theorem delayPhase_withPorts (hd : p.dDone = s.port.dDone) :
    delayPhase (s.withPorts p e) = (delayPhase s).withPorts p e := by
  have hissue : delayIssue (s.withPorts p e) = (delayIssue s).withPorts p e := rfl
  have hresponse : delayResponse (s.withPorts p e) = (delayResponse s).withPorts p e := rfl
  simp only [delayPhase, State.withPorts_pend, State.withPorts_port, hd, hissue, hresponse,
    apply_ite (State.withPorts p e)]

theorem readPhase_withPorts (ha : p.answer = s.port.answer) :
    readPhase (s.withPorts p e) = (readPhase s).withPorts p e := by
  have hissue : readIssue (s.withPorts p e) = (readIssue s).withPorts p e := rfl
  cases hans : s.port.answer <;>
    simp only [readPhase, State.withPorts_pend, State.withPorts_port, ha, hans, hissue, readResponse_withPorts,
      apply_ite (State.withPorts p e)]

/-- Of the ports the sequencer reads only the answers of the transport and of the delay agent (41_transaction.md
R120). -/
theorem advance_withPorts (ha : p.answer = s.port.answer) (hd : p.dDone = s.port.dDone) :
    advance (s.withPorts p e) = (advance s).withPorts p e := by
  simp only [advance, State.withPorts_phase, writePhase_withPorts ha, delayPhase_withPorts hd,
    readPhase_withPorts ha, check_withPorts, apply_ite (State.withPorts p e)]

end

/-- A busy engine's step reads only the answers shown. -/
theorem step_withPorts {p : Inputs} {s : State} (hs : s.phase ≠ Phase.idle) (ha : p.answer = s.port.answer)
    (hd : p.dDone = s.port.dDone) : step (s.withPorts p s.env) = step s := by
  obtain ⟨_, henv⟩ := advance_ports s
  have hs' : (s.withPorts p s.env).phase ≠ Phase.idle := hs
  rw [step_busy hs', step_busy hs, advance_withPorts ha hd, ← henv]
  rfl

/-- Settles O54: what is on the command port changes no answer. -/
theorem busyEngineIgnoresTheCommandPort : Obligations.BusyEngineIgnoresTheCommandPort :=
  fun _ _ _ hs => step_withPorts hs rfl rfl

end Sys2Proof.Machine
end

section
/-! PROOFS. A whole read command (41_transaction.md R131): its run from acceptance to completion, request by request,
after any waits. -/

namespace Sys2Proof.Machine

/-! ### Runs over given inputs -/

/-- The input ports show the inputs `l` one after the other, and are silent past its end (assumption log 3). -/
def State.showing (l : List Inputs) (s : State) : State := s.withPorts (l.headD Inputs.silent) l.tail

/-- After a step the ports show what the list held next. -/
theorem tick_eq_showing (s : State) : s.tick = s.showing s.env := rfl

section

variable {s t : State} {i : Instr} {e : BusEvent} {p pa : Inputs} {l w rest : List Inputs} (k : Nat)

/-- A run begins with the step of the sequencer, which consumes the inputs shown first. -/
theorem run_advance (hs : s.phase ≠ Phase.idle) (h : advance (s.showing (p :: l)) = t.showing (p :: l)) :
    Host.Core.run Sys2Proof.core (k + 1) (s.showing (p :: l)) = Host.Core.run Sys2Proof.core k (t.showing l) := by
  have hs' : (s.showing (p :: l)).phase ≠ Phase.idle := hs
  refine run_succ k ?_
  rw [step_busy hs', h]; rfl

/-- Inputs without an answer are waited out (60_exceptions.md R172). -/
theorem run_unanswered (hs : s.phase ≠ Phase.idle) (hp : s.pend = true) (hu : ∀ q ∈ w, s.unanswered q) :
    Host.Core.run Sys2Proof.core (k + w.length) (s.showing (w ++ rest)) =
      Host.Core.run Sys2Proof.core k (s.showing rest) := by
  induction w with
  | nil => rfl
  | cons q w ih =>
    have hq : advance (s.showing (q :: (w ++ rest))) = s.showing (q :: (w ++ rest)) :=
      advance_unanswered hp (hu q (by simp))
    exact (run_advance (k + w.length) hs hq).trans (ih fun r hr => hu r (by simp [hr]))

/-- A request, any waits, and the answer take the engine from its issue step to its response (20_memory.md R55). -/
theorem run_request (hs : s.phase ≠ Phase.idle)
    (hissue : ∀ l, advance (s.showing l) = (issue e s).showing l) (hu : ∀ q ∈ w, s.unanswered q)
    (hanswer : advance ((issue e s).showing (pa :: rest)) = t.showing (pa :: rest)) :
    Host.Core.run Sys2Proof.core (k + w.length + 2) (s.showing (p :: (w ++ pa :: rest))) =
      Host.Core.run Sys2Proof.core k (t.showing rest) := by
  have hwait : Host.Core.run Sys2Proof.core (k + 1 + w.length) ((issue e s).showing (w ++ pa :: rest)) = _ :=
    run_unanswered (k + 1) hs rfl hu
  calc Host.Core.run Sys2Proof.core (k + w.length + 2) (s.showing (p :: (w ++ pa :: rest)))
      = Host.Core.run Sys2Proof.core (k + w.length + 1) ((issue e s).showing (w ++ pa :: rest)) :=
        run_advance _ hs (hissue _)
    _ = Host.Core.run Sys2Proof.core (k + 1) ((issue e s).showing (pa :: rest)) := by
        rw [← hwait, Nat.add_right_comm]
    _ = Host.Core.run Sys2Proof.core k (t.showing rest) := run_advance k hs hanswer

/-- The WRITE phase as a whole (41_transaction.md R123, R124). -/
theorem run_write (h : s.phase = Phase.write) (hp : s.pend = false) (hw : ∀ q ∈ w, q.tDone = false)
    (ha : pa.tDone = true) :
    Host.Core.run Sys2Proof.core (k + w.length + 2) (s.showing (p :: (w ++ pa :: rest))) =
      Host.Core.run Sys2Proof.core k ((writeResponse pa.tOk (issue (.write s.addr s.frame) s)).showing rest) := by
  refine run_request (e := .write s.addr s.frame) k (by simp [h]) (fun l => advance_write_issue (s := s.showing l) h hp)
    (fun q hq => .inl ⟨.inl h, hw q hq⟩) ?_
  exact (advance_write_response (s := (issue _ s).showing (pa :: rest)) h rfl ha).trans
    (writeResponse_withPorts _ _ _ _)

/-- The DELAY phase as a whole (41_transaction.md R125, R126). -/
theorem run_delay (h : s.phase = Phase.delay) (hp : s.pend = false) (hw : ∀ q ∈ w, q.dDone = false)
    (ha : pa.dDone = true) :
    Host.Core.run Sys2Proof.core (k + w.length + 2) (s.showing (p :: (w ++ pa :: rest))) =
      Host.Core.run Sys2Proof.core k ((delayResponse (issue (.delay s.dly) s)).showing rest) :=
  run_request (e := .delay s.dly) k (by simp [h]) (fun l => advance_delay_issue (s := s.showing l) h hp)
    (fun q hq => .inr ⟨h, hw q hq⟩) (advance_delay_response (s := (issue _ s).showing (pa :: rest)) h rfl ha)

/-- The READ phase as a whole (41_transaction.md R127, R128). -/
theorem run_read (h : s.phase = Phase.read) (hp : s.pend = false) (hw : ∀ q ∈ w, q.tDone = false)
    (ha : pa.tDone = true) :
    Host.Core.run Sys2Proof.core (k + w.length + 2) (s.showing (p :: (w ++ pa :: rest))) =
      Host.Core.run Sys2Proof.core k
        ((readResponse ⟨pa.tOk, replyBytes pa.tRdata⟩ (issue (.read s.addr 5) s)).showing rest) := by
  refine run_request (e := .read s.addr 5) k (by simp [h]) (fun l => advance_read_issue (s := s.showing l) h hp)
    (fun q hq => .inl ⟨.inr h, hw q hq⟩) ?_
  exact (advance_read_response (s := (issue _ s).showing (pa :: rest)) h rfl ha).trans
    (readResponse_withPorts _ _ _ _)

/-- The CHECK phase is one step, whatever the ports show (41_transaction.md R129). -/
theorem run_check (h : s.phase = Phase.check) :
    Host.Core.run Sys2Proof.core (k + 1) (s.showing (p :: rest)) =
      Host.Core.run Sys2Proof.core k ((check s).showing rest) :=
  run_advance k (by simp [h])
    ((advance_of_check (s := s.showing (p :: rest)) h).trans (check_withPorts _ _ _))

/-- A run begins with the acceptance of the legal word that is offered (41_transaction.md R121). -/
theorem run_accept (h : s.phase = Phase.idle) (hv : s.port.cmdValid = true) (hd : decode s.port.cmd = .ok i) :
    Host.Core.run Sys2Proof.core (k + 1) s =
      Host.Core.run Sys2Proof.core k ((accept (latch i) s).showing s.env) := by
  rw [run_succ k (step_accept h hv hd), tick_eq_showing, accept_env]

end

/-! ### From acceptance to the read -/

/-- Command `i`, given in the idle state `s`, is about to request its read: the write has succeeded and the delay is
over. -/
def State.atRead (i : Instr) (s : State) : State :=
  { accept (latch i) s with
    hist := s.hist ++ [.write s.addr [(latch i).reg], .delay (latch i).dly], phase := Phase.read }

@[simp] theorem atRead_addr (s : State) (i : Instr) : (s.atRead i).addr = s.addr := rfl

section

variable {s : State} {i : Instr} {p1 pa p2 pb p3 pc p4 : Inputs} {w1 w2 w3 rest : List Inputs} (k : Nat)

/-- The write of an accepted read command carries the register id alone (30_encoding.md R86). -/
theorem frame_accept_of_read (s : State) (hr : i.isRead = true) : (accept (latch i) s).frame = [(latch i).reg] :=
  (accept_holds i s).frame_of_read ((isRead_iff i).1 hr)

/-- A read command runs to its write's answer. -/
theorem run_to_write_answer (h : s.phase = Phase.idle) (hv : s.port.cmdValid = true)
    (hd : decode s.port.cmd = .ok i) (hr : i.isRead = true) (henv : s.env = p1 :: (w1 ++ pa :: rest))
    (hw1 : ∀ p ∈ w1, p.tDone = false) (ha : pa.tDone = true) :
    Host.Core.run Sys2Proof.core (k + w1.length + 3) s =
      Host.Core.run Sys2Proof.core k
        ((writeResponse pa.tOk (issue (.write s.addr [(latch i).reg]) (accept (latch i) s))).showing rest) := by
  rw [run_accept _ h hv hd, henv, run_write k rfl rfl hw1 ha, frame_accept_of_read s hr, accept_addr]

/-- A read command whose write succeeds runs to its read (41_transaction.md R131). -/
theorem run_to_read (h : s.phase = Phase.idle) (hv : s.port.cmdValid = true) (hd : decode s.port.cmd = .ok i)
    (hr : i.isRead = true) (henv : s.env = p1 :: (w1 ++ pa :: p2 :: (w2 ++ pb :: rest)))
    (hw1 : ∀ p ∈ w1, p.tDone = false) (ha : pa.tDone = true) (hok : pa.tOk = true)
    (hw2 : ∀ p ∈ w2, p.dDone = false) (hb : pb.dDone = true) :
    Host.Core.run Sys2Proof.core (k + w2.length + 2 + w1.length + 3) s =
      Host.Core.run Sys2Proof.core k ((s.atRead i).showing rest) := by
  have hop : (latch i).op ≠ Op.setaddr := (isRead_iff i).1 hr
  rw [run_to_write_answer _ h hv hd hr henv hw1 ha, hok, writeResponse_of_read hop, run_delay k rfl rfl hw2 hb]
  simp [State.atRead, delayResponse, issue]

/-- Completion after the read request shows the outcome with the three events of a read command. -/
theorem complete_atRead (s : State) (i : Instr) (e : ErrKind) (v : Word) :
    complete e v (issue (.read s.addr 5) (s.atRead i)) =
      s.finishedWith ⟨e, v, s.addr, [.write s.addr [(latch i).reg], .delay (latch i).dly, .read s.addr 5]⟩ := by
  have hh : s.hist ++ [.write s.addr [(latch i).reg], .delay (latch i).dly] ++ [.read s.addr 5] =
      s.hist ++ [.write s.addr [(latch i).reg], .delay (latch i).dly, .read s.addr 5] := by simp
  rw [State.finishedWith, ← hh]; rfl

/-- CHECK of the bytes just received ends the command in the state before they came, by their verdict: the completion
clears RX, PEND and PHASE (41_transaction.md R129, R130). -/
theorem check_received (u : State) (rx : Vector Byte 5) :
    check { u with rx := rx, pend := false, phase := Phase.check } =
      if frameOk rx then complete .none (decodeReading u.op (rawValue rx)) u else raiseError .integrity u := by
  rcases check_cases { u with rx := rx, pend := false, phase := Phase.check } with ⟨h, g⟩ | ⟨h, g⟩ <;> rw [g]
  · exact (if_pos h).symm
  · exact (if_neg (by simp [h])).symm

/-- CHECK of the frame `rx` ends a read command with the outcome that the blocking procedure computes
(41_transaction.md R129, R131). -/
theorem check_atRead (s : State) (i : Instr) (rx : Vector Byte 5) :
    check { issue (.read s.addr 5) (s.atRead i) with rx := rx, pend := false, phase := Phase.check } =
      s.finishedWith (readResult (latch i).op (latch i).reg (latch i).dly s.addr true true rx) := by
  have hop : (issue (.read s.addr 5) (s.atRead i)).op = (latch i).op := rfl
  rw [check_received, hop]
  cases hrx : frameOk rx with
  | false => rw [if_neg (by simp), raiseError, complete_atRead]; simp [readResult, hrx]
  | true => rw [if_pos rfl, complete_atRead]; simp [readResult, hrx]

end

/-! ### The outcomes -/

/-- Settles O47: acceptance, the three requests with their waits, and CHECK; acceptance overwrites what the transient
registers held, so the idle form is not used. -/
theorem readCommandRunsToItsOutcome : Obligations.ReadCommandRunsToItsOutcome := by
  intro s i p1 pa p2 pb p3 pc p4 w1 w2 w3 rest h _ hv hd hr henv hw1 ha hok hw2 hb hw3 hc hcok
  have hlen : 8 + w1.length + w2.length + w3.length = 0 + 1 + w3.length + 2 + w2.length + 2 + w1.length + 3 := by omega
  rw [hlen, run_to_read _ h hv hd hr henv hw1 ha hok hw2 hb, run_read _ rfl rfl hw3 hc, hcok, readResponse_succeeded,
    run_check 0 rfl, atRead_addr, check_atRead]
  rfl

/-- Settles O48: the read's answer raises TRANSPORT, and its bytes go nowhere. -/
theorem readCommandEndsWhenItsReadFails : Obligations.ReadCommandEndsWhenItsReadFails := by
  intro s i p1 pa p2 pb p3 pc w1 w2 w3 rest h _ hv hd hr henv hw1 ha hok hw2 hb hw3 hc hcok
  have hlen : 7 + w1.length + w2.length + w3.length = 0 + w3.length + 2 + w2.length + 2 + w1.length + 3 := by omega
  rw [hlen, run_to_read _ h hv hd hr henv hw1 ha hok hw2 hb, run_read _ rfl rfl hw3 hc, hcok, readResponse_failed,
    atRead_addr, raiseError, complete_atRead]
  rfl

/-- Settles O49: the write's answer raises TRANSPORT, before any other request. -/
theorem readCommandShortCircuitsWhenItsWriteFails : Obligations.ReadCommandShortCircuitsWhenItsWriteFails := by
  intro s i p1 pa w1 rest rok rx h _ hv hd hr henv hw1 ha hok
  have hlen : 3 + w1.length = 0 + w1.length + 3 := by omega
  rw [hlen, run_to_write_answer _ h hv hd hr henv hw1 ha, hok, writeResponse_failed]
  rfl

end Sys2Proof.Machine
end

section
/-! PROOFS. The reading decoder (42_decoder.md): what it computes of every raw value. -/

namespace Sys2Proof.Machine

/-- In exact arithmetic the resistance reading wraps at 32 bits (42_decoder.md R142). -/
theorem decodeReading_getres_toNat (raw : Word) : (decodeReading Op.getres raw).toNat = raw.toNat * 100 % 2 ^ 32 := by
  have h := decodeReading_getres raw.toNat
  rw [BitVec.ofNat_toNat, BitVec.setWidth_eq] at h
  rw [h, BitVec.toNat_ofNat]

/-- In exact arithmetic the mask of the TVOC reading is a remainder, which always fits in a word (42_decoder.md R143). -/
theorem decodeReading_gettvoc_toNat (raw : Word) : (decodeReading Op.gettvoc raw).toNat = raw.toNat % 2 ^ 24 := by
  have h := decodeReading_gettvoc raw.toNat
  rw [BitVec.ofNat_toNat, BitVec.setWidth_eq] at h
  rw [h, BitVec.toNat_ofNat]
  omega

/-- Settles O11: one lemma for each OP that 42_decoder.md R140 defines. -/
theorem decodingOfEachReading : Obligations.DecodingOfEachReading := fun raw =>
  ⟨decodeReading_rdreg raw, decodeReading_getver raw, decodeReading_getres_toNat raw, decodeReading_gettvoc_toNat raw⟩

end Sys2Proof.Machine
end

section
/-! PROOFS. SETADDR, the address change (43_address_change.md): its step at the transport's answer, and its run from
acceptance to completion. -/

namespace Sys2Proof.Machine

/-! ### The answer -/

/-- Settles O31: the answer's step is that of every command in progress, and the latched operand says that the opcode
is SETADDR's and NEWA the new address (43_address_change.md R151). -/
theorem setaddrFollowsTheTransport : Obligations.SetaddrFollowsTheTransport := by
  intro n s h hp ht hl
  have hop : s.op = Op.setaddr := by rw [← latched_op, hl]; rfl
  have hnewa : s.newa = n := by rw [← latched_newa, hl]; rfl
  obtain ⟨hfailed, hsucceeded, _⟩ := writeResponseEndsOrGoesOn (.setaddr n) s h hp ht hl
  refine ⟨fun hok => ?_, fun hok => ?_⟩
  · rw [hsucceeded hok hop, hnewa]; rfl
  · rw [hfailed hok]; rfl

/-! ### The run -/

/-- The write of an accepted SETADDR carries the six-byte frame (30_encoding.md R89). -/
theorem frame_accept_setaddr (n : Byte) (s : State) :
    (accept (latch (.setaddr n)) s).frame = (addrFrame n).toList :=
  (accept_holds (.setaddr n) s).frame_of_setaddr rfl

/-- The transport's answer to the write of SETADDR ends the command with the outcome that the blocking procedure
computes (41_transaction.md R124, 43_address_change.md R150). -/
theorem writeResponse_setaddr (n : Byte) (s : State) (ok : Bool) :
    writeResponse ok (issue (.write s.addr (addrFrame n).toList) (accept (latch (.setaddr n)) s)) =
      s.finishedWith (setaddrResult n s.addr ok) := by
  cases ok with
  | false => rw [writeResponse_failed]; rfl
  | true => rw [writeResponse_of_setaddr rfl]; rfl

/-- Settles O50: acceptance, then the one write request with its waits and its answer; acceptance overwrites what the
transient registers held, so the idle form is not used. -/
theorem setaddrRunsToItsOutcome : Obligations.SetaddrRunsToItsOutcome := by
  intro s n p1 pa w1 rest h _ hv hd henv hw1 ha
  have hlen : 3 + w1.length = 0 + w1.length + 2 + 1 := by omega
  rw [hlen, run_accept _ h hv hd, henv, run_write 0 rfl rfl hw1 ha, frame_accept_setaddr, accept_addr,
    writeResponse_setaddr]
  rfl

end Sys2Proof.Machine
end

section
/-! PROOFS. The statements about errors and about the steps in which nothing happens (60_exceptions.md): which step
raises each error kind, what an error leaves behind, and what a waiting or an idle engine keeps. -/

namespace Sys2Proof.Machine

/-! ### Which step raises each error kind -/

/-- The first four bytes of a frame that fails its check have another checksum than its fifth byte
(40_checksum.md R114). -/
theorem crc8_ne_of_bad_frame {rx : Vector Byte 5} (h : frameOk rx = false) :
    crc8 [rx[0], rx[1], rx[2], rx[3]] ≠ rx[4] := by
  rw [← Bool.not_eq_true, frameOk_iff] at h
  exact h

/-- A sequencer step keeps ERR, ends the command without an error, or raises TRANSPORT at a failed answer or INTEGRITY
at a bad frame (60_exceptions.md R161, R162). -/
theorem advance_err (s : State) :
    (advance s).err = s.err ∨ (advance s).err = ErrKind.none.code ∨
    ((advance s).err = ErrKind.transport.code ∧ (s.phase = Phase.write ∨ s.phase = Phase.read) ∧ s.pend = true ∧
      s.port.tDone = true ∧ s.port.tOk = false) ∨
    ((advance s).err = ErrKind.integrity.code ∧ s.phase = Phase.check ∧ frameOk s.rx = false) := by
  rcases advance_outcomes s with ⟨_, _, g⟩ | ⟨h, hp, hd, ho, g⟩ | ⟨_, _, _, _, _, g⟩ | ⟨_, _, _, _, _, g⟩ | ⟨_, _, g⟩ |
    ⟨_, _, _, g⟩ | ⟨_, _, g⟩ | ⟨h, hp, hd, ho, g⟩ | ⟨_, _, _, _, g⟩ | ⟨_, _, g⟩ | ⟨h, hbad, g⟩ | ⟨_, _, _, _, g⟩ <;> rw [g]
  · exact .inl rfl
  · exact .inr (.inr (.inl ⟨rfl, .inl h, hp, hd, ho⟩))
  · exact .inr (.inl rfl)
  · exact .inl rfl
  · exact .inl rfl
  · exact .inl rfl
  · exact .inl rfl
  · exact .inr (.inr (.inl ⟨rfl, .inr h, hp, hd, ho⟩))
  · exact .inl rfl
  · exact .inr (.inl rfl)
  · exact .inr (.inr (.inr ⟨rfl, h, hbad⟩))
  · exact .inl rfl

/-- A step keeps ERR, clears it, or raises one of the three error kinds under the condition that the rules give for it
(60_exceptions.md R161 to R163). -/
theorem step_err {s t : State} (h : step s = .next t) :
    t.err = s.err ∨ t.err = ErrKind.none.code ∨
    (t.err = ErrKind.transport.code ∧ (s.phase = Phase.write ∨ s.phase = Phase.read) ∧ s.pend = true ∧
      s.port.tDone = true ∧ s.port.tOk = false) ∨
    (t.err = ErrKind.integrity.code ∧ s.phase = Phase.check ∧ frameOk s.rx = false) ∨
    (t.err = ErrKind.illegal.code ∧ s.phase = Phase.idle ∧ s.port.cmdValid = true ∧
      ∃ r, decode s.port.cmd = .error r) := by
  rcases step_cases h with ⟨_, rfl⟩ | ⟨_, _, _, _, rfl⟩ | ⟨hs, hv, hd, rfl⟩ | ⟨_, _, rfl⟩
  · rcases advance_err s with e | e | e | e
    · exact .inl e
    · exact .inr (.inl e)
    · exact .inr (.inr (.inl e))
    · exact .inr (.inr (.inr (.inl e)))
  · exact .inr (.inl rfl)
  · exact .inr (.inr (.inr (.inr ⟨rfl, hs, hv, hd⟩)))
  · exact .inl rfl

/-- Settles O37: the error kinds have different codes, so of each step only its own clause speaks. -/
theorem eachErrorKindHasItsStep : Obligations.EachErrorKindHasItsStep := by
  intro s t h hne
  rcases step_err h with e | e | ⟨e, hfailed⟩ | ⟨e, hs, hbad⟩ | ⟨e, hillegal⟩
  · exact absurd e hne
  · simp [e]
  · simpa [e] using hfailed
  · simpa [e] using And.intro hs (crc8_ne_of_bad_frame hbad)
  · simpa [e] using hillegal

/-! ### What an error leaves behind -/

/-- Settles O33: after an error the engine is idle, and acceptance clears DONE and ERR. -/
theorem errorLeavesTheEngineReady : Obligations.ErrorLeavesTheEngineReady :=
  fun e s i => ⟨rfl, rfl, rfl, rfl, rfl, rfl, accept (latch i) (raiseError e s), exec_idle i rfl, rfl, rfl, rfl⟩

/-! ### Runs in which only the ports move -/

/-- The inputs shown change no register and no event. -/
theorem showing_keeps (l : List Inputs) (s : State) : (s.showing l).sameRegisters s ∧ (s.showing l).hist = s.hist :=
  ⟨⟨rfl, rfl, rfl, rfl, rfl, rfl, rfl, rfl, rfl, rfl, rfl, rfl, rfl, rfl⟩, rfl⟩

/-- An engine that every input of one sort leaves as it is, silence among them, is left as it is by a run over such
inputs, of any number of steps (assumption logs 3 and 4). -/
theorem run_of_ineffective {s : State} {ineffective : Inputs → Prop} (hsilent : ineffective Inputs.silent)
    (hstep : ∀ p e, ineffective p → step (s.withPorts p e) = .next (s.withPorts p e).tick) (k : Nat) :
    ∀ l, (∀ p ∈ l, ineffective p) →
      Host.Core.run Sys2Proof.core k (s.showing l) = .next (s.showing (l.drop k)) := by
  induction k with
  | zero => exact fun l _ => run_zero _
  | succ k ih =>
    intro l hl
    have hnow : ineffective (l.headD Inputs.silent) := by
      cases l with
      | nil => exact hsilent
      | cons p l => exact hl p (by simp)
    calc Host.Core.run Sys2Proof.core (k + 1) (s.showing l)
        = Host.Core.run Sys2Proof.core k (s.showing l.tail) := run_succ k (hstep _ _ hnow)
      _ = .next (s.showing (l.tail.drop k)) := ih l.tail fun p hp => hl p (List.mem_of_mem_tail hp)
      _ = .next (s.showing (l.drop (k + 1))) := by rw [List.drop_tail]

/-- An engine whose request is outstanding is busy. -/
theorem busy_of_unanswered {s : State} {p : Inputs} (h : s.unanswered p) : s.phase ≠ Phase.idle := by
  rcases h with ⟨h | h, _⟩ | ⟨h, _⟩ <;> simp [h]

/-- Silence answers no request. -/
theorem unanswered_silent {s : State} {p : Inputs} (h : s.unanswered p) : s.unanswered Inputs.silent := by
  rcases h with ⟨h, _⟩ | ⟨h, _⟩
  · exact .inl ⟨h, rfl⟩
  · exact .inr ⟨h, rfl⟩

/-- In a step without an answer to the outstanding request only the ports move (60_exceptions.md R172). -/
theorem step_unanswered {s : State} (hp : s.pend = true) (hu : s.unanswered s.port) : step s = .next s.tick := by
  rw [step_busy (busy_of_unanswered hu), advance_unanswered hp hu]

/-- Settles O52: the run only moves the ports; the invariant says what a busy engine's DONE and ERR are. -/
theorem unansweredEngineIsStuck : Obligations.UnansweredEngineIsStuck := by
  intro s k hi hp hu
  have hnow : s.unanswered s.port := hu _ (by simp)
  have hs : s.phase ≠ Phase.idle := busy_of_unanswered hnow
  obtain ⟨hdone, herr, _⟩ := hi.busy_status hs
  obtain ⟨hregs, hhist⟩ := showing_keeps ((s.port :: s.env).drop k) s
  have hrun := run_of_ineffective (s := s) (unanswered_silent hnow)
    (fun p e hq => step_unanswered (s := s.withPorts p e) hp hq) k _ hu
  exact ⟨_, hrun, hregs, hhist, bne_iff_ne.2 hs, hdone, herr⟩

/-! ### The quiet engine -/

/-- An idle engine to which no word is offered keeps its registers through any run (60_exceptions.md R173). -/
theorem run_quiet {s : State} (k : Nat) (hs : s.phase = Phase.idle)
    (hq : ∀ p ∈ s.port :: s.env, p.cmdValid = false) :
    Host.Core.run Sys2Proof.core k s = .next (s.showing ((s.port :: s.env).drop k)) :=
  run_of_ineffective (ineffective := fun p => p.cmdValid = false) rfl
    (fun p e hv => step_quiet (s := s.withPorts p e) hs hv) k _ hq

/-- VALUE, DONE and ERR change only when a word is offered to an idle engine or the command in progress ends
(10_state.md R22). -/
theorem step_keeps_results {s t : State} (h : step s = .next t)
    (hoffer : s.phase = Phase.idle → s.port.cmdValid = false) (hend : s.phase ≠ Phase.idle → t.phase ≠ Phase.idle) :
    t.value = s.value ∧ t.done = s.done ∧ t.err = s.err := by
  rcases step_cases h with ⟨hs, rfl⟩ | ⟨hs, hv, _⟩ | ⟨hs, hv, _⟩ | ⟨_, _, rfl⟩
  · obtain ⟨_, hvalue, hdone, herr, _⟩ := advance_keepsWithin (hend hs)
    exact ⟨hvalue, hdone, herr⟩
  · simp [hoffer hs] at hv
  · simp [hoffer hs] at hv
  · exact ⟨rfl, rfl, rfl⟩

/-- Settles O59: a step without an offer only moves the ports, and so does a run; a step that neither takes a word nor
ends a command keeps the results. -/
theorem quietEngineKeepsItsRegisters : Obligations.QuietEngineKeepsItsRegisters := by
  refine ⟨fun s hs hv => ⟨s.tick, step_quiet hs hv, showing_keeps s.env s⟩,
    fun s k hs hq => ⟨_, run_quiet k hs hq, showing_keeps _ s⟩, fun s t h hne => ?_⟩
  by_contra hneither
  obtain ⟨hoffer, hend⟩ := not_or.1 hneither
  obtain ⟨hvalue, hdone, herr⟩ := step_keeps_results h
    (fun hs => Bool.eq_false_iff.2 fun hv => hoffer ⟨hs, hv⟩) (fun hs ht => hend ⟨hs, ht⟩)
  simp [hvalue, hdone, herr] at hne

end Sys2Proof.Machine
end

section
/-! PROOFS. Sample command words (95_test_vectors.md section 2.2), and that every step answers a next state
(60_exceptions.md R168). -/

namespace Sys2Proof.Machine

/-! ### Sample words -/

/-- Settles O2: the legal words are those that the encoder gives, and the illegal ones are run. -/
theorem sampleWordsDecode : Obligations.SampleWordsDecode :=
  ⟨decode_encode (.rdreg 0x11#8 30#16), decode_encode (.rdreg 0x20#8 1000#16), decode_encode (.rdreg 0xFF#8 65535#16),
    decode_encode (.rdreg 0x00#8 0#16), decode_encode .getver, decode_encode .getres, decode_encode .gettvoc,
    decode_encode (.setaddr 0x2B#8), decode_encode (.setaddr 0xFF#8), rfl, rfl, rfl, rfl, rfl, rfl, rfl⟩

/-! ### Every step answers -/

/-- Every command answers a next state. -/
theorem exec_answers (i : Instr) (s : State) : ∃ t, exec i s = .next t := ⟨_, exec_eq i s⟩

/-- Every step of the machine answers a next state (60_exceptions.md R168). -/
theorem step_answers (s : State) : ∃ t, step s = .next t := by
  by_cases hs : s.phase = Phase.idle
  · cases hv : s.port.cmdValid with
    | false => exact ⟨_, step_quiet hs hv⟩
    | true =>
      cases hd : decode s.port.cmd with
      | ok i => exact ⟨_, step_accept hs hv hd⟩
      | error r => exact ⟨_, step_reject hs hv hd⟩
  · exact ⟨_, step_busy hs⟩

/-- Settles O34. -/
theorem everyStepAnswersANextState : Obligations.EveryStepAnswersANextState := ⟨step_answers, exec_answers⟩

end Sys2Proof.Machine
end

section
/-! PROOFS. The register invariant: every step keeps it, so it holds of every reachable state; and what follows from it
for a busy engine's DONE and for idle engines (10_state.md R25, R35). -/

namespace Sys2Proof.Machine

/-! ### Idle states -/

/-- An idle engine in the idle form meets the register invariant if its results are consistent: an error shows with
DONE and the sentinel, and before the end of a command nothing shows. -/
theorem inv_of_idleForm {s : State} (hs : s.phase = Phase.idle) (hf : s.idleForm)
    (herr : s.err ≠ ErrKind.none.code → s.done = true ∧ s.value = Config.sentinel)
    (hnot : s.done = false → s.err = ErrKind.none.code ∧ s.value = Config.sentinel) : Inv s := by
  obtain ⟨hpend, _, _, _, _, _, _, hrx, hcrc⟩ := id hf
  exact {
    phase_legal := by rw [hs]; decide
    pend_phase := fun h => by simp [hpend] at h
    idle_form := fun _ => hf
    busy_status := fun h => absurd hs h
    busy_holds := fun h => absurd hs h
    past_write := by simp [hs]
    rx_zero := fun _ => hrx
    crc_zero := hcrc
    error_value := herr
    not_done := hnot }

/-- The end of a command meets the register invariant if an error comes with the sentinel (41_transaction.md R130). -/
theorem inv_complete {e : ErrKind} {v : Word} (s : State)
    (h : e.code ≠ ErrKind.none.code → v = Config.sentinel) : Inv (complete e v s) :=
  inv_of_idleForm rfl ⟨rfl, rfl, rfl, rfl, rfl, rfl, rfl, rfl, rfl⟩ (fun he => ⟨rfl, h he⟩) nofun

/-- A rejected word keeps the register invariant of an idle engine (41_transaction.md R122). -/
theorem Inv.reject {s : State} (h : Inv s) (hs : s.phase = Phase.idle) : Inv (reject s) :=
  inv_of_idleForm hs (h.idle_form hs) (fun _ => ⟨rfl, rfl⟩) nofun

/-- Acceptance meets the register invariant: an idle engine's RX and CRC are zero already (41_transaction.md R121). -/
theorem Inv.accept {s : State} (h : Inv s) (hs : s.phase = Phase.idle) (i : Instr) : Inv (accept (latch i) s) where
  phase_legal := show 1#3 ≤ 4#3 by decide
  pend_phase := nofun
  idle_form := nofun
  busy_status := fun _ => ⟨rfl, rfl, rfl⟩
  busy_holds := fun _ => ⟨i, accept_holds i s⟩
  past_write := by simp
  rx_zero := fun _ => h.rx_zero (by simp [hs])
  crc_zero := h.crc_zero
  error_value := fun k => absurd rfl k
  not_done := fun _ => ⟨rfl, rfl⟩

/-! ### Busy states -/

/-- The phase that follows a phase which asks an agent is one of a command in progress (10_state.md R27). -/
theorem State.asking.next_le_check {s : State} (h : s.asking) : s.phase + 1#3 ≤ Phase.check := by
  rcases h with e | e | e <;> rw [e] <;> decide

/-- Within a command PHASE keeps a legal value, and a request is outstanding only in a phase that asks an agent
(10_state.md R27, R28). -/
theorem advance_working {s : State} (h : s.working) (ht : (advance s).phase ≠ Phase.idle) :
    (advance s).working ∧ ((advance s).pend = true → (advance s).asking) := by
  rcases advance_kinds s with ⟨ha, _, _, _, g⟩ | ⟨ha, _, _, g⟩ | ⟨_, hi, _⟩ | ⟨hc, _, g⟩
  · rw [g]; exact ⟨h, fun _ => ha⟩
  · rw [g]; exact ⟨⟨ha.next_ne_idle, ha.next_le_check⟩, nofun⟩
  · exact absurd hi ht
  · rw [g]; exact ⟨h, fun _ => by simpa [hc] using h.phase_cases⟩

/-- Within a command RX takes bytes only on the way to CHECK (10_state.md R31). -/
theorem advance_rx_zero {s : State} (h : s.phase ≠ Phase.check → s.rx = rxZero)
    (ht : (advance s).phase ≠ Phase.idle) (hc : (advance s).phase ≠ Phase.check) : (advance s).rx = rxZero := by
  obtain ⟨_, _, _, _, _, _, _, _, _, _, _, hrx⟩ := advance_keepsWithin ht
  have hs : s.phase ≠ Phase.check := fun k => ht (by rw [advance_of_check k]; exact check_phase s)
  by_cases hr : s.phase = Phase.read
  · rcases advance_kinds s with ⟨_, _, _, _, g⟩ | ⟨_, _, _, g⟩ | ⟨_, hi, _⟩ | ⟨_, _, g⟩
    · rw [g]; exact h hs
    · exact absurd (by rw [g, hr]; rfl) hc
    · exact absurd hi ht
    · rw [g]; exact h hs
  · rw [hrx hr]; exact h hs

/-- A sequencer step keeps the register invariant: it ends the command, or it keeps the registers of the command. -/
theorem Inv.advance {s : State} (h : Inv s) (hs : s.phase ≠ Phase.idle) : Inv (advance s) := by
  by_cases ht : (Machine.advance s).phase = Phase.idle
  · rcases advance_ends hs ht with ⟨e, g⟩ | ⟨v, u, g⟩ <;> rw [g]
    · exact inv_complete s fun _ => rfl
    · exact inv_complete u fun k => absurd rfl k
  obtain ⟨hbusy, hpast⟩ := advance_framed h.framed hs
  obtain ⟨⟨_, hlegal⟩, hpend⟩ := advance_working ⟨hs, h.phase_legal⟩ ht
  obtain ⟨_, hvalue, hdone, herr, _, _, _, _, _, _, hcrc, _⟩ := advance_keepsWithin ht
  have hstatus := h.busy_status hs
  rw [← hdone, ← herr, ← hvalue] at hstatus
  obtain ⟨_, hnone, hsentinel⟩ := id hstatus
  exact {
    phase_legal := hlegal
    pend_phase := hpend
    idle_form := fun k => absurd k ht
    busy_status := fun _ => hstatus
    busy_holds := hbusy
    past_write := fun k => hpast ht (by rcases k with e | e | e <;> simp [e])
    rx_zero := advance_rx_zero h.rx_zero ht
    crc_zero := hcrc.trans h.crc_zero
    error_value := fun k => absurd hnone k
    not_done := fun _ => ⟨hnone, hsentinel⟩ }

/-! ### The step -/

/-- The register invariant does not look at the ports. -/
theorem Inv.tick {s : State} (h : Inv s) : Inv s.tick where
  __ := h

/-- Settles O43: acceptance, rejection and the sequencer each keep the invariant, and the ports do not matter to it. -/
theorem stepKeepsTheRegisterInvariant : Obligations.StepKeepsTheRegisterInvariant := by
  intro s t h e
  rcases step_cases e with ⟨hs, rfl⟩ | ⟨hs, _, i, _, rfl⟩ | ⟨hs, _, _, rfl⟩ | ⟨_, _, rfl⟩
  · exact (h.advance hs).tick
  · exact (h.accept hs i).tick
  · exact (h.reject hs).tick
  · exact h.tick

/-- The register invariant holds of every reachable state. -/
theorem Reachable.inv {s : State} (h : Reachable s) : Inv s := by
  induction h with
  | reset p e => exact inv_reset p e
  | step s t _ e ih => exact stepKeepsTheRegisterInvariant s t ih e

/-! ### What an engine shows -/

/-- BUSY is PHASE nonzero (10_state.md R25). -/
theorem busy_iff (s : State) : s.busy = true ↔ s.phase ≠ Phase.idle := bne_iff_ne

/-- `cmd_ready` is the complement of BUSY (10_state.md R25). -/
theorem cmdReady_eq_not_busy (s : State) : s.cmdReady = !s.busy := by
  simp [State.cmdReady, State.busy, bne]

/-- STATUS is its four fields, the highest first (10_state.md R25). -/
theorem status_fields (s : State) : s.status.getLsbD 0 = s.busy ∧ s.status.getLsbD 1 = s.done ∧
    s.status.extractLsb' 2 2 = s.err ∧ s.status.extractLsb' 4 28 = 0#28 := by
  have h : s.status = (0#28 ++ s.err ++ BitVec.ofBool s.done ++ BitVec.ofBool s.busy : BitVec (28 + 2 + 1 + 1)) := rfl
  rw [h]
  refine ⟨?_, ?_, ?_, ?_⟩
  · rw [BitVec.getLsbD_append]; simp
  · rw [BitVec.getLsbD_append, BitVec.getLsbD_append]; simp
  · simp only [BitVec.extractLsb'_append_eq_ite]; simp
  · simp only [BitVec.extractLsb'_append_eq_ite]; simp

/-- Settles O39: the fields by definition; BUSY without DONE is part of the register invariant. -/
theorem statusWordFields : Obligations.StatusWordFields :=
  ⟨fun s => ⟨busy_iff s, cmdReady_eq_not_busy s, status_fields s⟩,
    fun s h hb => (h.inv.busy_status ((busy_iff s).1 hb)).1⟩

/-! ### Idle engines -/

/-- Two idle engines in the idle form differ at most in ADDR and the results (10_state.md R35). -/
theorem sameRegisters_iff_of_idleForm {s t : State} (hs : s.phase = Phase.idle) (ht : t.phase = Phase.idle)
    (fs : s.idleForm) (ft : t.idleForm) :
    s.sameRegisters t ↔ s.addr = t.addr ∧ s.value = t.value ∧ s.done = t.done ∧ s.err = t.err := by
  simp only [State.sameRegisters, hs, ht, fs, ft, and_true]

/-- Settles O45: the idle form is part of the register invariant. -/
theorem reachableIdleStatesHaveTheIdleForm : Obligations.ReachableIdleStatesHaveTheIdleForm := by
  refine ⟨fun s h hs => ?_, fun s t h k hs ht => ?_⟩
  · obtain ⟨hpend, hop, hreg, hdly, hnewa, htx, htxlen, hrx, hcrc⟩ := h.inv.idle_form hs
    exact ⟨hpend, hop, hreg, hdly, hnewa, by rw [htx]; rfl, htxlen, by rw [hrx]; rfl, hcrc⟩
  · exact sameRegisters_iff_of_idleForm hs ht (h.inv.idle_form hs) (k.inv.idle_form ht)

end Sys2Proof.Machine
end

section
/-! PROOFS. Which commands end well (95_test_vectors.md section 4, property 4): the reading of a good frame, and when it
can equal the sentinel (42_decoder.md R144). -/

namespace Sys2Proof.Machine

/-! ### Success -/

/-- A frame check that ends without an error found a good frame and reports its reading (41_transaction.md R129). -/
theorem check_succeeds {s : State} (h : (check s).err = ErrKind.none.code) :
    frameOk s.rx = true ∧ (check s).value = decodeReading s.op (rawValue s.rx) := by
  rcases check_cases s with ⟨hgood, g⟩ | ⟨_, g⟩
  · exact ⟨hgood, by rw [g]; rfl⟩
  · simp [g] at h

/-- Only CHECK ends a read command without an error (41_transaction.md R124, R128, R129). -/
theorem check_of_advance_succeeds {s : State} (hs : s.phase ≠ Phase.idle) (hop : s.op ≠ Op.setaddr)
    (ht : (advance s).phase = Phase.idle) (herr : (advance s).err = ErrKind.none.code) : s.phase = Phase.check := by
  rcases (ending_of_advance_idle hs ht).1 with ⟨h, _⟩ | ⟨h, _⟩ | h
  · rw [advance_of_write h] at ht herr
    rcases writePhase_cases s with ⟨_, g⟩ | ⟨_, _, g⟩ | ⟨_, _, _, g⟩ | ⟨_, _, _, k, _⟩ | ⟨_, _, _, _, g⟩
    · exact absurd ht (by simp [g, h])
    · exact absurd ht (by simp [g, h])
    · exact absurd herr (by simp [g])
    · exact absurd k hop
    · exact absurd ht (by simp [g])
  · rw [advance_of_read h] at ht herr
    rcases readPhase_cases s with ⟨_, g⟩ | ⟨_, _, g⟩ | ⟨_, _, _, g⟩ | ⟨_, _, _, g⟩
    · exact absurd ht (by simp [g, h])
    · exact absurd ht (by simp [g, h])
    · exact absurd herr (by simp [g])
    · exact absurd ht (by simp [g])
  · exact h

/-- The step out of CHECK is the frame check. -/
theorem step_check {s t : State} (hs : s.phase = Phase.check) (h : step s = .next t) : t = (check s).tick := by
  rw [step_busy (by simp [hs]), advance_of_check hs] at h
  cases h
  rfl

/-- Settles O57: only CHECK ends a read command well, and only a good frame passes it. -/
theorem successMeansAGoodFrame : Obligations.SuccessMeansAGoodFrame := by
  intro s t hs hop h ht hok
  have herr : t.err = ErrKind.none.code := by simpa using (Bool.and_eq_true_iff.1 hok).2
  have e : t = (advance s).tick := by rw [step_busy hs] at h; cases h; rfl
  have hcheck : s.phase = Phase.check := by
    rw [e] at ht herr
    exact check_of_advance_succeeds hs hop ht herr
  rw [step_check hcheck h] at herr ⊢
  obtain ⟨hgood, hvalue⟩ := check_succeeds herr
  exact ⟨hcheck, (frameOk_iff s.rx).1 hgood, hvalue⟩

/-! ### A good reading that equals the sentinel -/

/-- A multiple of 100 is even, also modulo 2^32, and the sentinel is odd (42_decoder.md R144). -/
theorem decodeReading_getres_ne_sentinel (raw : Word) : decodeReading Op.getres raw ≠ Config.sentinel := by
  intro h
  have hn := decodeReading_getres_toNat raw
  rw [h] at hn
  change 2 ^ 32 - 1 = _ at hn
  omega

/-- The TVOC reading has 24 bits (42_decoder.md R143). -/
theorem decodeReading_gettvoc_le (raw : Word) : decodeReading Op.gettvoc raw ≤ Config.tvocMask := by
  rw [BitVec.le_def, decodeReading_gettvoc_toNat]
  change _ ≤ 2 ^ 24 - 1
  omega

/-- Four bytes make the sentinel exactly when all of them are ones: each byte adds at most 255 in its place. -/
theorem be32_eq_sentinel_iff (d0 d1 d2 d3 : Byte) :
    be32 d0 d1 d2 d3 = Config.sentinel ↔ d0 = 0xFF#8 ∧ d1 = 0xFF#8 ∧ d2 = 0xFF#8 ∧ d3 = 0xFF#8 := by
  have hones : Config.sentinel.toNat = 2 ^ 32 - 1 := by decide
  rw [← BitVec.toNat_inj, be32_toNat, hones]
  simp only [← BitVec.toNat_inj, BitVec.toNat_ofNat]
  have h0 := d0.isLt
  have h1 := d1.isLt
  have h2 := d2.isLt
  have h3 := d3.isLt
  omega

/-- The checksum of four bytes of ones is `0x66`, byte by byte (40_checksum.md R113). -/
theorem crc8_four_ones : crc8 [0xFF#8, 0xFF#8, 0xFF#8, 0xFF#8] = 0x66#8 := by
  have h2 : crc8Byte 0x00#8 0xFF#8 = 0xAC#8 := by decide
  have h3 : crc8Byte 0xAC#8 0xFF#8 = 0x2D#8 := by decide
  have h4 : crc8Byte 0x2D#8 0xFF#8 = 0x66#8 := by decide
  simp only [crc8, List.foldl_cons, List.foldl_nil, crc8Byte_self, h2, h3, h4]

/-- The raw value of a good frame equals the sentinel exactly for four bytes of ones and their checksum
(42_decoder.md R144). -/
theorem rawValue_eq_sentinel_iff {rx : Vector Byte 5} (h : frameOk rx = true) :
    rawValue rx = Config.sentinel ↔ rx.toList = [0xFF#8, 0xFF#8, 0xFF#8, 0xFF#8, 0x66#8] := by
  have hlast : rx[4] = crc8 [rx[0], rx[1], rx[2], rx[3]] := ((frameOk_iff rx).1 h).symm
  rw [rawValue, be32_eq_sentinel_iff, frame_toList]
  constructor
  · rintro ⟨h0, h1, h2, h3⟩
    rw [hlast, h0, h1, h2, h3, crc8_four_ones]
    rfl
  · intro hl
    simp only [List.cons_append, List.nil_append, List.cons.injEq] at hl
    obtain ⟨h0, h1, h2, h3, _⟩ := hl
    exact ⟨h0, h1, h2, h3⟩

/-- Settles O56: the step reports the decoding of a good frame, and each opcode decodes in its own way. -/
theorem goodReadingEqualsSentinelOnlyForAllOnes : Obligations.GoodReadingEqualsSentinelOnlyForAllOnes := by
  intro s t hs h _ herr
  rw [step_check hs h] at herr ⊢
  obtain ⟨hgood, hvalue⟩ := check_succeeds herr
  rw [State.tick_value, hvalue]
  refine ⟨fun hop => ?_, fun hop => ?_, fun hop => ?_⟩
  · rw [hop]; exact decodeReading_getres_ne_sentinel _
  · rw [hop]; exact decodeReading_gettvoc_le _
  · have hraw : decodeReading s.op (rawValue s.rx) = rawValue s.rx := by
      rcases hop with hop | hop <;> rw [hop]
      · exact decodeReading_rdreg _
      · exact decodeReading_getver _
    rw [hraw]
    exact rawValue_eq_sentinel_iff hgood

end Sys2Proof.Machine
end

section
/-! PROOFS. GETVER and RDREG `0x11`, 30 act alike (30_encoding.md R94): their runs differ in OP alone, and only until the
command ends. -/

namespace Sys2Proof.Machine

/-! ### A GETVER in progress, taken for the RDREG -/

/-- GETVER's opcode replaced by RDREG's, every other opcode kept. -/
def State.asRdreg (s : State) : State := { s with op := if s.op = Op.getver then Op.rdreg else s.op }

section

variable (s : State)

@[simp] theorem State.asRdreg_op : s.asRdreg.op = if s.op = Op.getver then Op.rdreg else s.op := rfl
@[simp] theorem State.asRdreg_phase : s.asRdreg.phase = s.phase := rfl
@[simp] theorem State.asRdreg_pend : s.asRdreg.pend = s.pend := rfl
@[simp] theorem State.asRdreg_port : s.asRdreg.port = s.port := rfl

/-- Neither opcode is SETADDR's. -/
theorem asRdreg_op_eq_setaddr_iff : s.asRdreg.op = Op.setaddr ↔ s.op = Op.setaddr := by
  by_cases h : s.op = Op.getver <;> simp [h]

/-- Both opcodes return the raw value (42_decoder.md R140). -/
theorem decodeReading_asRdreg (raw : Word) : decodeReading s.asRdreg.op raw = decodeReading s.op raw := by
  by_cases h : s.op = Op.getver
  · rw [State.asRdreg_op, if_pos h, h, decodeReading_rdreg, decodeReading_getver]
  · rw [State.asRdreg_op, if_neg h]

/-! Of OP the rules ask only whether it is SETADDR's and how it decodes, and a completion clears it (41_transaction.md
R124, R129, R130); so each takes the same step for both opcodes. -/

theorem writeResponse_asRdreg (ok : Bool) : writeResponse ok s.asRdreg = (writeResponse ok s).asRdreg := by
  cases ok with
  | false => rfl
  | true =>
    by_cases hop : s.op = Op.setaddr
    · rw [writeResponse_of_setaddr ((asRdreg_op_eq_setaddr_iff s).2 hop), writeResponse_of_setaddr hop]; rfl
    · rw [writeResponse_of_read (mt (asRdreg_op_eq_setaddr_iff s).1 hop), writeResponse_of_read hop]; rfl

theorem readResponse_asRdreg (a : Answer) : readResponse a s.asRdreg = (readResponse a s).asRdreg := by
  simp only [readResponse]
  split_ifs <;> rfl

theorem check_asRdreg : check s.asRdreg = (check s).asRdreg := by
  rcases check_cases s with ⟨h, g⟩ | ⟨h, g⟩ <;> rw [g]
  · rw [check_of_good_frame (s := s.asRdreg) h, decodeReading_asRdreg]; rfl
  · rw [check_of_bad_frame (s := s.asRdreg) h]; rfl

theorem writePhase_asRdreg : writePhase s.asRdreg = (writePhase s).asRdreg := by
  have hissue : writeIssue s.asRdreg = (writeIssue s).asRdreg := rfl
  cases hans : s.port.answer <;>
    simp only [writePhase, State.asRdreg_pend, State.asRdreg_port, hans, hissue, writeResponse_asRdreg,
      apply_ite State.asRdreg]

theorem delayPhase_asRdreg : delayPhase s.asRdreg = (delayPhase s).asRdreg := by
  have hissue : delayIssue s.asRdreg = (delayIssue s).asRdreg := rfl
  have hresponse : delayResponse s.asRdreg = (delayResponse s).asRdreg := rfl
  simp only [delayPhase, State.asRdreg_pend, State.asRdreg_port, hissue, hresponse, apply_ite State.asRdreg]

theorem readPhase_asRdreg : readPhase s.asRdreg = (readPhase s).asRdreg := by
  have hissue : readIssue s.asRdreg = (readIssue s).asRdreg := rfl
  cases hans : s.port.answer <;>
    simp only [readPhase, State.asRdreg_pend, State.asRdreg_port, hans, hissue, readResponse_asRdreg,
      apply_ite State.asRdreg]

/-- The sequencer takes the same step for both opcodes. -/
theorem advance_asRdreg : advance s.asRdreg = (advance s).asRdreg := by
  simp only [advance, State.asRdreg_phase, writePhase_asRdreg, delayPhase_asRdreg, readPhase_asRdreg, check_asRdreg,
    apply_ite State.asRdreg]

end

/-- After the end of a command nothing is left to replace. -/
theorem asRdreg_of_ended {s : State} (hs : s.phase ≠ Phase.idle) (ht : (advance s).phase = Phase.idle) :
    (advance s).asRdreg = advance s := by
  rcases advance_ends hs ht with ⟨e, g⟩ | ⟨v, u, g⟩ <;> rw [g] <;> rfl

/-! ### The two runs -/

/-- The engines are the same, or busy with GETVER and with its RDREG in the same step. -/
def State.twin (s t : State) : Prop := t = s ∨ (s.phase ≠ Phase.idle ∧ t = s.asRdreg)

/-- Twins look alike from outside. -/
theorem State.twin.looks {s t : State} (h : s.twin t) : s.addr = t.addr ∧ s.value = t.value ∧ s.done = t.done ∧
    s.err = t.err ∧ s.busy = t.busy ∧ s.hist = t.hist := by
  rcases h with rfl | ⟨_, rfl⟩ <;> exact ⟨rfl, rfl, rfl, rfl, rfl, rfl⟩

/-- Twins step to twins. -/
theorem State.twin.step {s t : State} (h : s.twin t) :
    ∃ s' t', Machine.step s = .next s' ∧ Machine.step t = .next t' ∧ s'.twin t' := by
  rcases h with rfl | ⟨hs, rfl⟩
  · obtain ⟨s', e⟩ := step_answers t
    exact ⟨s', s', e, e, .inl rfl⟩
  · have ht : s.asRdreg.phase ≠ Phase.idle := hs
    refine ⟨_, _, step_busy hs, step_busy ht, ?_⟩
    rw [advance_asRdreg]
    by_cases he : (advance s).phase = Phase.idle
    · exact .inl (by rw [asRdreg_of_ended hs he])
    · exact .inr ⟨he, rfl⟩

/-- Twins run to twins. -/
theorem State.twin.run (k : Nat) : ∀ {s t : State}, s.twin t →
    ∃ s' t', Host.Core.run Sys2Proof.core k s = .next s' ∧ Host.Core.run Sys2Proof.core k t = .next t' ∧
      s'.twin t' := by
  induction k with
  | zero => exact fun {s t} h => ⟨s, t, run_zero s, run_zero t, h⟩
  | succ k ih =>
    intro s t h
    obtain ⟨s', t', hs, ht, h'⟩ := h.step
    rw [run_succ k hs, run_succ k ht]
    exact ih h'

/-- A run begins with the acceptance of the command that is offered, and then the word on the port is gone. -/
theorem run_offer {s : State} (k : Nat) (hs : s.phase = Phase.idle) (i : Instr) :
    Host.Core.run Sys2Proof.core (k + 1) (s.offer (encode i)) =
      Host.Core.run Sys2Proof.core k ((accept (latch i) s).showing s.env) :=
  run_accept (s := s.offer (encode i)) k hs rfl (decode_encode i)

/-- GETVER latches what RDREG `0x11`, 30 latches, but for OP (30_encoding.md R85). -/
theorem accept_getver_twin (s : State) (l : List Inputs) :
    ((accept (latch .getver) s).showing l).twin ((accept (latch (.rdreg 0x11#8 30#16)) s).showing l) :=
  .inr ⟨nofun, rfl⟩

/-- Settles O51: acceptance makes twins, and before it the two engines differ only in the word offered. -/
theorem getverActsAsItsRdreg : Obligations.GetverActsAsItsRdreg := by
  intro s k hs
  cases k with
  | zero => exact ⟨_, _, run_zero _, run_zero _, rfl, rfl, rfl, rfl, rfl, rfl⟩
  | succ k =>
    rw [run_offer k hs, run_offer k hs]
    obtain ⟨t, u, ht, hu, h⟩ := (accept_getver_twin s s.env).run k
    exact ⟨t, u, ht, hu, h.looks⟩

end Sys2Proof.Machine
end
